-- ==== Sys2Proof/Word.lean ====
section
/-! DEFINITION. The byte and the bus transaction (30_encoding R55). -/

namespace Sys2Proof

/-- One byte: bit `n` has weight `2^n` (00_scope R10). -/
abbrev Byte := BitVec 8

/-- One bus transaction `(ctrl, byte)`: the register selector and the payload of one register write
(30_encoding R55). The device address is bound when the handle is opened and is not repeated here. -/
structure Xact where
  ctrl : Byte
  byte : Byte
  deriving DecidableEq, Repr, Inhabited

end Sys2Proof
end

