-- ==== Sys2Proof/Config.lean ====
section
/-! DEFINITION. What a build fixes (00_scope R8, R9) and the free values of the model.
The parameters are plain data that `State.par` carries, so a statement about every state covers every
value of them (log 1). The free values have no body: nothing can be proved of what they are. -/

namespace Sys2Proof

/-- `INIT_FROM_CLOSED` (00_scope R9, 44_display_controller R136). -/
inductive ClosedPolicy where
  | reject
  | reopen
  deriving DecidableEq, Repr, Inhabited

/-- The numeric codes `HOSTOP_*` of the host operations, 3 bits each (30_encoding R60, 00_scope R9). -/
structure HostCodes where
  initializeOp : BitVec 3
  update : BitVec 3
  dispose : BitVec 3
  getWidth : BitVec 3
  getHeight : BitVec 3
  deriving DecidableEq, Repr, Inhabited

/-- The numeric codes `ERR_*` of the results (60_exceptions R150, 00_scope R9). -/
structure ErrCodes where
  ok : Nat
  transportOpenError : Nat
  transportWriteError : Nat
  deviceInitError : Nat
  invalidSurfaceError : Nat
  invalidStateError : Nat
  deriving DecidableEq, Repr, Inhabited

/-- The codes a build reads and sends: the 21 opcode parameters `OP_*` (30_encoding R64, R65), one field
per wire command, and the host operation codes. -/
structure OpTable where
  host : HostCodes
  dispoff : Byte
  clkdiv : Byte
  muxratio : Byte
  dispoffset : Byte
  startline : Byte
  chargepump : Byte
  memmode : Byte
  segremap : Byte
  comscandec : Byte
  compins : Byte
  contrast : Byte
  precharge : Byte
  vcomdesel : Byte
  resumeram : Byte
  normaldisp : Byte
  scrolloff : Byte
  dispon : Byte
  coladdr : Byte
  pageaddr : Byte
  invertdisp : Byte
  scrollon : Byte
  deriving DecidableEq, Repr, Inhabited

/-- The open parameters of a build (00_scope R9). `writeTimeout` is `WRITE_TIMEOUT`
(60_exceptions R160): `none` is the base design; the bound itself has no meaning in a model without time. -/
structure Params where
  ops : OpTable
  errs : ErrCodes
  initFromClosed : ClosedPolicy
  writeTimeout : Option Nat
  deriving DecidableEq, Repr, Inhabited

/-- The answer the Transport draws for one call (40_transport R76). `applied` is the second draw of
20_memory R54: whether a write that was not acknowledged reached the panel all the same. -/
inductive Answer where
  /-- success (for `open`: a fresh handle) -/
  | ok
  /-- the call is reported failed -/
  | fail (applied : Bool)
  /-- the call is never answered (70_reset_and_hazards R176) -/
  | silent (applied : Bool)
  deriving DecidableEq, Repr, Inhabited

/-- What a pixel intensity stands for (42_frame_encoder R108, R109): the rational `num / (denPred + 1)`,
an infinity, or no number. -/
inductive IntensityValue where
  | number (num : Int) (denPred : Nat)
  | infinity (negative : Bool)
  | nan
  deriving DecidableEq, Repr, Inhabited

/-- FREE VALUE (log 3): what code `n` stands for in the intensity format of a build that is none of the
formats the spec names: the spec leaves `Intensity` open (00_scope R9, 42_frame_encoder R108). -/
opaque Config.ownIntensity : Nat → IntensityValue

/-- FREE VALUE (log 6): the Transport's answer number `n`, past the end of the scripted answers. -/
opaque Config.freeAnswer : Nat → Answer

/-- FREE VALUE (log 13): byte `k` of the panel's configuration after the event number `n` after which
the spec calls the panel unknown (70_reset_and_hazards R175). -/
opaque Config.freePanelByte : Nat → Nat → Byte

/-- FREE VALUE (log 14): byte `k` of the panel's configuration before anything was written to it
(10_state R27, R31). -/
opaque Config.powerOnByte : Nat → Byte

end Sys2Proof
end

