-- ==== Sys2Proof/Syntax.lean ====
section
/-! DEFINITION. The operands and the instructions: one constructor of `Instr` per row of
spec/opcode_table.json (30_encoding R64, R69, R70). -/

namespace Sys2Proof

/-- A pixel intensity (42_frame_encoder R108): the default exact rational, the two 8-bit
instantiations and the binary floating-point one the spec names, whatever its widths, and a value of a
format of the build's own (00_scope R9); what it stands for is `intensityValue` of Operands.lean. -/
inductive Intensity where
  /-- the rational `num / (denPred + 1)` -/
  | ratio (num : Int) (denPred : Nat)
  /-- instantiation (a): the 8-bit code `u` stands for `u/255` -/
  | per255 (u : Byte)
  /-- instantiation (b): the 8-bit code `u` stands for `u/256` -/
  | per256 (u : Byte)
  /-- a finite binary floating-point value, `± significand * 2^exponent` -/
  | float (negative : Bool) (significand : Nat) (exponent : Int)
  /-- a floating-point infinity -/
  | infinity (negative : Bool)
  /-- a floating-point value that is not a number -/
  | nan
  /-- code `n` of the build's own format -/
  | own (n : Nat)
  deriving DecidableEq, Repr, Inhabited

/-- A PixelSurface (20_memory R34) with its declared dimensions (92_eei_decisions D9): the intensity of
pixel `(x, y)` is the first one `pixels` lists for it, and `base` where it lists none. -/
structure Surface where
  width : Nat
  height : Nat
  base : Intensity
  pixels : List ((Nat × Nat) × Intensity)
  deriving DecidableEq, Repr, Inhabited

/-- The catalogue of wire commands that have an opcode (41_command_table R78, 30_encoding R64). -/
inductive Cmd where
  | dispoff | clkdiv | muxratio | dispoffset | startline | chargepump | memmode | segremap | comscandec
  | compins | contrast | precharge | vcomdesel | resumeram | normaldisp | scrolloff | dispon
  | coladdr | pageaddr | invertdisp | scrollon
  deriving DecidableEq, Repr, Inhabited

/-- The instructions. A command's parameter bytes are operands here; the values the CommandTable fixes
for them are the check of WellFormed.lean (log 29). -/
inductive Instr where
  -- host operations, format HOST (30_encoding R60)
  /-- INITIALIZE, R128 -/
  | initializeOp
  /-- UPDATE, R129 -/
  | update (surf : Surface)
  /-- DISPOSE, R130 -/
  | dispose
  /-- GET_WIDTH, R131 -/
  | getWidth
  /-- GET_HEIGHT, R132 -/
  | getHeight
  -- Transport operations, format XPORT (R61)
  /-- T_OPEN, R71 -/
  | tOpen (addr : BitVec 7)
  /-- T_WRITE, R72 -/
  | tWrite (ctrl byte : Byte)
  /-- T_CLOSE, R73 -/
  | tClose
  -- internal primitives
  /-- SEND_CMD, R79 -/
  | sendCmd (op : Byte) (params : List Byte)
  /-- CLASSIFY, R107 -/
  | classify (v : Intensity)
  /-- PACK, R110 -/
  | pack (surf : Surface) (page : BitVec 3) (x : BitVec 7)
  /-- ENCODE, R111 -/
  | encode (surf : Surface)
  -- pseudo-instructions (R70)
  /-- INIT_SEQ, R80 -/
  | initSeq
  /-- SET_WINDOW, R118 -/
  | setWindow
  /-- SEND_FRAME, R122 -/
  | sendFrame
  /-- UPDATE_PROGRAM, R123 -/
  | updateProgram (surf : Surface)
  -- wire commands (R57, R64)
  /-- DISPOFF, R84 -/
  | dispoff
  /-- CLKDIV, R85 -/
  | clkdiv (p : Byte)
  /-- MUXRATIO, R86 -/
  | muxratio (p : Byte)
  /-- DISPOFFSET, R87 -/
  | dispoffset (p : Byte)
  /-- STARTLINE, R88 -/
  | startline
  /-- CHARGEPUMP, R89 -/
  | chargepump (p : Byte)
  /-- MEMMODE, R90 -/
  | memmode (p : Byte)
  /-- SEGREMAP, R91 -/
  | segremap
  /-- COMSCANDEC, R92 -/
  | comscandec
  /-- COMPINS, R93 -/
  | compins (p : Byte)
  /-- CONTRAST, R94 -/
  | contrast (p : Byte)
  /-- PRECHARGE, R95 -/
  | precharge (p : Byte)
  /-- VCOMDESEL, R96 -/
  | vcomdesel (p : Byte)
  /-- RESUMERAM, R97 -/
  | resumeram
  /-- NORMALDISP, R98 -/
  | normaldisp
  /-- SCROLLOFF, R99 -/
  | scrolloff
  /-- DISPON, R100 -/
  | dispon
  /-- COLADDR, R101 -/
  | coladdr (first last : Byte)
  /-- PAGEADDR, R102 -/
  | pageaddr (first last : Byte)
  /-- INVERTDISP, R103 -/
  | invertdisp
  /-- SCROLLON, R104 -/
  | scrollon
  /-- DATA, R58 -/
  | data (d : Byte)
  deriving DecidableEq, Repr, Inhabited

/-- One request of the host: a 3-bit code and an argument, which only UPDATE reads (30_encoding R60). -/
structure HostRequest where
  code : BitVec 3
  arg : Surface
  deriving DecidableEq, Repr, Inhabited

end Sys2Proof
end

