-- ==== Sys2Proof/Machine/Operands.lean ====
section
/-! DEFINITION. Operand forms: reading the surface, classifying an intensity, pixel and PageBuffer
addresses, and the packing of pixels into bytes (20_memory R34 to R37, 42_frame_encoder R107 to R111). -/

namespace Sys2Proof.Machine

/-- Columns and rows of the panel (00_scope R8; `DisplayWidth`, `DisplayHeight`). -/
def displayWidth : Nat := 128
def displayHeight : Nat := 64

/-- The declared dimensions are those of the panel (60_exceptions R148). -/
def panelSized (surf : Surface) : Bool :=
  surf.width == displayWidth && surf.height == displayHeight

/-- The listed intensity of a pixel, or the base intensity. -/
def lookupPixel (base : Intensity) (x y : Nat) : List ((Nat × Nat) × Intensity) → Intensity
  | [] => base
  | (k, v) :: rest => if k = (x, y) then v else lookupPixel base x y rest

/-- `Surf(x, y)`, that is `MemRead(SURF:(x,y), 1)` (20_memory R34). -/
def readPixel (surf : Surface) (x y : Nat) : Intensity :=
  lookupPixel surf.base x y surf.pixels

/-- `± significand * 2^exponent` as a fraction: a positive exponent scales the numerator, a negative one
the denominator. -/
def floatValue (negative : Bool) (significand : Nat) (exponent : Int) : IntensityValue :=
  .number ((if negative then -(significand : Int) else significand) * 2 ^ exponent.toNat)
    (2 ^ (-exponent).toNat - 1)

/-- `val(v)`: what an intensity stands for (42_frame_encoder R108, R109). -/
def intensityValue : Intensity → IntensityValue
  | .ratio num denPred => .number num denPred
  | .per255 u => .number u.toNat 254
  | .per256 u => .number u.toNat 255
  | .float negative significand exponent => floatValue negative significand exponent
  | .infinity negative => .infinity negative
  | .nan => .nan
  | .own n => Config.ownIntensity n

/-- CLASSIFY: ink if and only if the intensity exceeds 1/2, strictly (42_frame_encoder R107); the same
comparison outside 0..1, infinities included, and a not-a-number value is background (R109). -/
def ink (v : Intensity) : Bool :=
  match intensityValue v with
  | .number num denPred => decide ((denPred : Int) + 1 < 2 * num)
  | .infinity negative => !negative
  | .nan => false

/-- The PageBuffer index of page `page` and column `x` (20_memory R35). -/
def pageIndex (page x : Nat) : Nat := page * 128 + x

/-- The PageBuffer index and the bit number of pixel `(x, y)` (20_memory R36, R37). -/
def pixelIndex (x y : Nat) : Nat := pageIndex (y / 8) x
def pixelBit (y : Nat) : Nat := y % 8

/-- PACK: bit `n` of the byte is the class of the pixel in row `page*8 + n` of column `x`
(42_frame_encoder R110). -/
def packByte (surf : Surface) (page x : Nat) : Byte :=
  (List.range 8).foldl
    (fun b n => if ink (readPixel surf x (page * 8 + n)) then b ||| ((1 : Byte) <<< n) else b) 0

/-- ENCODE: byte `i` of the PageBuffer is PACK of page `i div 128` and column `i mod 128`
(42_frame_encoder R111). -/
def encodeBytes (surf : Surface) : List Byte :=
  (List.range 1024).map fun i => packByte surf (i / 128) (i % 128)

end Sys2Proof.Machine
end

