-- ==== Sys2Proof/WellFormed.lean ====
section
/-! DEFINITION. Which instructions the spec's core can issue: the operands of each row at the values the
CommandTable and the geometry fix. -/

namespace Sys2Proof

/-- An instruction as the spec's core issues it. -/
def Instr.wellFormed : Instr → Bool
  | .initializeOp => true
  | .update _ => true              -- any declared dimensions: R129 answers wrong ones with an error
  | .dispose => true
  | .getWidth => true
  | .getHeight => true
  | .tOpen addr => addr == 0x3C    -- R71: always DEV_ADDR
  | .tWrite ctrl _ => ctrl == 0x00 || ctrl == 0x40   -- R56: no other control byte, ever
  | .tClose => true
  | .sendCmd _ params => decide (params.length ≤ 2)  -- R79: 0, 1 or 2 parameter bytes
  | .classify _ => true
  | .pack surf _ _ => Machine.panelSized surf        -- R34, U1
  | .encode surf => Machine.panelSized surf          -- R111: exactly 128 by 64
  | .initSeq => true
  | .setWindow => true
  | .sendFrame => true
  | .updateProgram surf => Machine.panelSized surf
  | .dispoff => true
  | .clkdiv p => p == 0x80         -- R85
  | .muxratio p => p == 0x3F       -- R86
  | .dispoffset p => p == 0x00     -- R87
  | .startline => true
  | .chargepump p => p == 0x14     -- R89
  | .memmode p => p == 0x00        -- R90
  | .segremap => true
  | .comscandec => true
  | .compins p => p == 0x12        -- R93
  | .contrast p => p == 0xCF       -- R94
  | .precharge p => p == 0xF1      -- R95
  | .vcomdesel p => p == 0x40      -- R96
  | .resumeram => true
  | .normaldisp => true
  | .scrolloff => true
  | .dispon => true
  | .coladdr first last => first == 0x00 && last == 0x7F   -- R101
  | .pageaddr first last => first == 0x00 && last == 0x07  -- R102
  | .invertdisp => true
  | .scrollon => true
  | .data _ => true                -- R58: all 256 values are legal

end Sys2Proof
end

