-- ==== Sys2Proof/Decode.lean ====
section
/-! DEFINITION. The encodings: host codes (30_encoding R60), wire commands and data writes as bus
transactions (R55 to R59, R64, R66); the decoder, total, refusing by name, and the encoder. -/

namespace Sys2Proof

/-- `DEV_ADDR`, `CTRL_CMD`, `CTRL_DATA` (00_scope R8). -/
def devAddr : BitVec 7 := 0x3C
def ctrlCmd : Byte := 0x00
def ctrlData : Byte := 0x40

/-- The host operation codes of 30_encoding R60. -/
def HostCodes.default : HostCodes where
  initializeOp := 0b001
  update := 0b010
  dispose := 0b011
  getWidth := 0b100
  getHeight := 0b101

/-- The result codes of 60_exceptions R150. -/
def ErrCodes.default : ErrCodes where
  ok := 0
  transportOpenError := 1
  transportWriteError := 2
  deviceInitError := 3
  invalidSurfaceError := 4
  invalidStateError := 5

/-- The default opcode bytes of 30_encoding R64 (PRESUMED by the spec: general knowledge, log 2), and the
host operation codes of R60. -/
def OpTable.default : OpTable where
  host := HostCodes.default
  dispoff := 0xAE
  clkdiv := 0xD5
  muxratio := 0xA8
  dispoffset := 0xD3
  startline := 0x40
  chargepump := 0x8D
  memmode := 0x20
  segremap := 0xA1
  comscandec := 0xC8
  compins := 0xDA
  contrast := 0x81
  precharge := 0xD9
  vcomdesel := 0xDB
  resumeram := 0xA4
  normaldisp := 0xA6
  scrolloff := 0x2E
  dispon := 0xAF
  coladdr := 0x21
  pageaddr := 0x22
  invertdisp := 0xA7
  scrollon := 0x2F

/-- The default build (00_scope R9). -/
def Params.default : Params where
  ops := OpTable.default
  errs := ErrCodes.default
  initFromClosed := .reject
  writeTimeout := none

/-- `OP_<mnemonic>` (30_encoding R65). -/
def OpTable.op (o : OpTable) : Cmd → Byte
  | .dispoff => o.dispoff
  | .clkdiv => o.clkdiv
  | .muxratio => o.muxratio
  | .dispoffset => o.dispoffset
  | .startline => o.startline
  | .chargepump => o.chargepump
  | .memmode => o.memmode
  | .segremap => o.segremap
  | .comscandec => o.comscandec
  | .compins => o.compins
  | .contrast => o.contrast
  | .precharge => o.precharge
  | .vcomdesel => o.vcomdesel
  | .resumeram => o.resumeram
  | .normaldisp => o.normaldisp
  | .scrolloff => o.scrolloff
  | .dispon => o.dispon
  | .coladdr => o.coladdr
  | .pageaddr => o.pageaddr
  | .invertdisp => o.invertdisp
  | .scrollon => o.scrollon

/-- The number of parameter bytes, a property of the opcode (30_encoding R57). -/
def Cmd.arity : Cmd → Nat
  | .dispoff => 0
  | .clkdiv => 1
  | .muxratio => 1
  | .dispoffset => 1
  | .startline => 0
  | .chargepump => 1
  | .memmode => 1
  | .segremap => 0
  | .comscandec => 0
  | .compins => 1
  | .contrast => 1
  | .precharge => 1
  | .vcomdesel => 1
  | .resumeram => 0
  | .normaldisp => 0
  | .scrolloff => 0
  | .dispon => 0
  | .coladdr => 2
  | .pageaddr => 2
  | .invertdisp => 0
  | .scrollon => 0

/-- The whole catalogue. -/
def Cmd.all : List Cmd :=
  [.dispoff, .clkdiv, .muxratio, .dispoffset, .startline, .chargepump, .memmode, .segremap,
   .comscandec, .compins, .contrast, .precharge, .vcomdesel, .resumeram, .normaldisp, .scrolloff,
   .dispon, .coladdr, .pageaddr, .invertdisp, .scrollon]

/-- The command an opcode byte stands for. -/
def OpTable.find (o : OpTable) (b : Byte) : Option Cmd :=
  Cmd.all.find? fun c => o.op c == b

/-- The opcodes are mutually distinct, as the defaults are (30_encoding R65). -/
def OpTable.distinct (o : OpTable) : Bool := decide (Cmd.all.map o.op).Nodup

/-- All the commands an opcode byte stands for: one at most where the opcodes are distinct, more where a
build gives two commands one byte, which no rule excludes (log 31). -/
def OpTable.named (o : OpTable) (b : Byte) : List Cmd :=
  Cmd.all.filter fun c => o.op c == b

/-- The host operation codes are mutually distinct, as the defaults are (30_encoding R60). -/
def HostCodes.distinct (c : HostCodes) : Bool :=
  decide [c.initializeOp, c.update, c.dispose, c.getWidth, c.getHeight].Nodup

/-- Why the decoder refuses. -/
inductive DecodeError where
  /-- there is nothing to decode -/
  | endOfStream
  /-- a control byte other than `0x00` and `0x40` (30_encoding R56) -/
  | badControl (ctrl : Byte)
  /-- a command byte that is no opcode of the table (R67) -/
  | unknownOpcode (b : Byte)
  /-- the stream ends, or leaves control byte `0x00`, before the command's last parameter (R57, R59) -/
  | missingParameter (c : Cmd)
  deriving DecidableEq, Repr

/-- What the wire decoder answers: an instruction and the rest of the stream, or a named refusal. -/
inductive Decoded where
  | ok (i : Instr) (rest : List Xact)
  | reject (why : DecodeError)
  deriving DecidableEq, Repr

/-- The parameter of a `CMD2` command: the next transaction, with control byte `0x00` (R59). -/
def decodeOne (c : Cmd) (f : Byte → Instr) : List Xact → Decoded
  | [] => .reject (.missingParameter c)
  | x :: rest => if x.ctrl = ctrlCmd then .ok (f x.byte) rest else .reject (.missingParameter c)

/-- The two parameters of a `CMD3` command. -/
def decodeTwo (c : Cmd) (f : Byte → Byte → Instr) : List Xact → Decoded
  | [] => .reject (.missingParameter c)
  | x :: rest => if x.ctrl = ctrlCmd then decodeOne c (f x.byte) rest else .reject (.missingParameter c)

/-- The command `c`, its parameters taken from the transactions after the opcode. -/
def decodeCmd (c : Cmd) (rest : List Xact) : Decoded :=
  match c with
  | .dispoff => .ok .dispoff rest
  | .clkdiv => decodeOne .clkdiv .clkdiv rest
  | .muxratio => decodeOne .muxratio .muxratio rest
  | .dispoffset => decodeOne .dispoffset .dispoffset rest
  | .startline => .ok .startline rest
  | .chargepump => decodeOne .chargepump .chargepump rest
  | .memmode => decodeOne .memmode .memmode rest
  | .segremap => .ok .segremap rest
  | .comscandec => .ok .comscandec rest
  | .compins => decodeOne .compins .compins rest
  | .contrast => decodeOne .contrast .contrast rest
  | .precharge => decodeOne .precharge .precharge rest
  | .vcomdesel => decodeOne .vcomdesel .vcomdesel rest
  | .resumeram => .ok .resumeram rest
  | .normaldisp => .ok .normaldisp rest
  | .scrolloff => .ok .scrolloff rest
  | .dispon => .ok .dispon rest
  | .coladdr => decodeTwo .coladdr .coladdr rest
  | .pageaddr => decodeTwo .pageaddr .pageaddr rest
  | .invertdisp => .ok .invertdisp rest
  | .scrollon => .ok .scrollon rest

/-- The instruction at a command boundary of a stream of transactions: a data write by its control byte,
a command by its opcode (30_encoding R58, R66). -/
def decodeWire (o : OpTable) : List Xact → Decoded
  | [] => .reject .endOfStream
  | x :: rest =>
    if x.ctrl = ctrlData then .ok (.data x.byte) rest
    else if x.ctrl = ctrlCmd then
      match o.find x.byte with
      | some c => decodeCmd c rest
      | none => .reject (.unknownOpcode x.byte)
    else .reject (.badControl x.ctrl)

/-- The host operation a request code spells; a code the build gives to none spells none, by default 0, 6
and 7 (30_encoding R60, R68). DESIGN CHOICE (log 39): a code that a build gives to two operations spells
the first of INITIALIZE, UPDATE, DISPOSE, GET_WIDTH, GET_HEIGHT, the order of R60's table. -/
def decodeHost (c : HostCodes) (r : HostRequest) : Option Instr :=
  if r.code = c.initializeOp then some .initializeOp
  else if r.code = c.update then some (.update r.arg)
  else if r.code = c.dispose then some .dispose
  else if r.code = c.getWidth then some .getWidth
  else if r.code = c.getHeight then some .getHeight
  else none

/-- A surface whose every operand bit is zero: the argument of a request that carries none. -/
def zeroSurface : Surface := ⟨0, 0, .ratio 0 0, []⟩

/-- The words of an instruction: a host request, a stream of transactions, or none. -/
inductive Words where
  | host (r : HostRequest)
  | wire (xs : List Xact)
  /-- the spec gives the instruction no binary encoding (30_encoding R61; the rows PRIM and PSEUDO) -/
  | unencoded
  deriving DecidableEq, Repr

/-- The transactions of a command: opcode, then parameters, all with control byte `0x00` (R57, R59). -/
def commandXacts (op : Byte) (params : List Byte) : List Xact :=
  (op :: params).map fun b => ⟨ctrlCmd, b⟩

/-- The encoder, from the same tables. -/
def encode (o : OpTable) : Instr → Words
  | .initializeOp => .host ⟨o.host.initializeOp, zeroSurface⟩
  | .update surf => .host ⟨o.host.update, surf⟩
  | .dispose => .host ⟨o.host.dispose, zeroSurface⟩
  | .getWidth => .host ⟨o.host.getWidth, zeroSurface⟩
  | .getHeight => .host ⟨o.host.getHeight, zeroSurface⟩
  | .tOpen _ => .unencoded
  | .tWrite _ _ => .unencoded
  | .tClose => .unencoded
  | .sendCmd _ _ => .unencoded
  | .classify _ => .unencoded
  | .pack _ _ _ => .unencoded
  | .encode _ => .unencoded
  | .initSeq => .unencoded
  | .setWindow => .unencoded
  | .sendFrame => .unencoded
  | .updateProgram _ => .unencoded
  | .dispoff => .wire (commandXacts o.dispoff [])
  | .clkdiv p => .wire (commandXacts o.clkdiv [p])
  | .muxratio p => .wire (commandXacts o.muxratio [p])
  | .dispoffset p => .wire (commandXacts o.dispoffset [p])
  | .startline => .wire (commandXacts o.startline [])
  | .chargepump p => .wire (commandXacts o.chargepump [p])
  | .memmode p => .wire (commandXacts o.memmode [p])
  | .segremap => .wire (commandXacts o.segremap [])
  | .comscandec => .wire (commandXacts o.comscandec [])
  | .compins p => .wire (commandXacts o.compins [p])
  | .contrast p => .wire (commandXacts o.contrast [p])
  | .precharge p => .wire (commandXacts o.precharge [p])
  | .vcomdesel p => .wire (commandXacts o.vcomdesel [p])
  | .resumeram => .wire (commandXacts o.resumeram [])
  | .normaldisp => .wire (commandXacts o.normaldisp [])
  | .scrolloff => .wire (commandXacts o.scrolloff [])
  | .dispon => .wire (commandXacts o.dispon [])
  | .coladdr first last => .wire (commandXacts o.coladdr [first, last])
  | .pageaddr first last => .wire (commandXacts o.pageaddr [first, last])
  | .invertdisp => .wire (commandXacts o.invertdisp [])
  | .scrollon => .wire (commandXacts o.scrollon [])
  | .data d => .wire [⟨ctrlData, d⟩]

/-- The bits of one opcode-table row as transactions (log 30). Up to 8 bits are the payload of the first
transaction, whose control byte is `0x00`; more bits are 16-bit pairs `(ctrl, byte)` with `ctrl` in the
high byte, the first pair lowest. Every bit above is 0. -/
def tableXacts (nbits w : Nat) : List Xact :=
  if nbits ≤ 8 then [⟨ctrlCmd, BitVec.ofNat 8 w⟩, ⟨0, 0⟩, ⟨0, 0⟩]
  else
    [⟨BitVec.ofNat 8 (w / 2 ^ 8), BitVec.ofNat 8 w⟩,
     ⟨BitVec.ofNat 8 (w / 2 ^ 24), BitVec.ofNat 8 (w / 2 ^ 16)⟩,
     ⟨BitVec.ofNat 8 (w / 2 ^ 40), BitVec.ofNat 8 (w / 2 ^ 32)⟩]

/-- The row's bits are a 3-bit host code (format HOST), not a wire byte: no default opcode is below 8. -/
def tableIsHost (nbits w : Nat) : Bool := decide (nbits ≤ 8) && decide (w < 8)

/-- The request the bits of a HOST row stand for; the argument's bits are above them, all zero. -/
def tableRequest (w : Nat) : HostRequest := ⟨BitVec.ofNat 3 w, zeroSurface⟩

/-- The instruction the decoder reads from a row of spec/opcode_table.json, under the default build. -/
def decodeTableWord (nbits w : Nat) : Option Instr :=
  if tableIsHost nbits w then decodeHost HostCodes.default (tableRequest w)
  else
    match decodeWire OpTable.default (tableXacts nbits w) with
    | .ok i _ => some i
    | .reject _ => none

/-- The transactions the decoded row occupies, without the zeros after it. -/
def tableWords (nbits w : Nat) : List Xact :=
  match decodeWire OpTable.default (tableXacts nbits w) with
  | .ok _ rest => (tableXacts nbits w).take (3 - rest.length)
  | .reject _ => tableXacts nbits w

end Sys2Proof
end

