-- ==== Sys2Proof/Machine/State.lean ====
section
/-! DEFINITION. The state of the machine, its faults and refusals, and the state after reset
(10_state R13 to R32, 44_display_controller R133). Plain data throughout. -/

namespace Sys2Proof.Machine

/-- A memory: the bytes that are known, by rising address. An unlisted address has no value
(log 15, log 18). `Memory.wf` of Memory.lean is the canonical form. -/
abbrev Memory := List Host.Cell

/-- `ST` (10_state R14). -/
inductive Lifecycle where
  | uninitialized
  | ready
  | closed
  deriving DecidableEq, Repr, Inhabited

/-- `HND`: the sentinel, or an opaque token the Transport gave out (10_state R15). -/
inductive Hnd where
  | unopened
  | opened (token : Nat)
  deriving DecidableEq, Repr, Inhabited

/-- `OPK`: which write program `SEQ` indexes (10_state R13). -/
inductive OpKind where
  | none
  | init
  | update
  deriving DecidableEq, Repr, Inhabited

/-- The host operations, as the context of a result (60_exceptions R151). -/
inductive HostOp where
  | initializeOp
  | update
  | dispose
  | getWidth
  | getHeight
  deriving DecidableEq, Repr, Inhabited

/-- What `DeviceInitError` wraps: the first Transport error (60_exceptions R147); a failed write with
its index and the transaction that failed (R146). -/
inductive Cause where
  | transportOpenError
  | transportWriteError (index : Nat) (x : Xact)
  deriving DecidableEq, Repr, Inhabited

/-- The values of `RES` (10_state R17, 60_exceptions R144, R150). -/
inductive Result where
  | ok
  /-- never returned bare to the host: only as a `Cause` (R150) -/
  | transportOpenError
  /-- from UPDATE, with the index of the failed write and the transaction (R146) -/
  | transportWriteError (index : Nat) (x : Xact)
  | deviceInitError (cause : Cause)
  | invalidSurfaceError
  /-- the operation and the state that does not admit it (R149) -/
  | invalidStateError (op : HostOp) (st : Lifecycle)
  deriving DecidableEq, Repr, Inhabited

/-- What a primitive returns to whoever called it (the `return` of the pseudocode). -/
inductive Ret where
  | none
  | ok
  | openError
  | writeError
  | handle (token : Nat)
  | bit (b : Bool)
  | byte (b : Byte)
  | dim (n : Nat)
  deriving DecidableEq, Repr, Inhabited

/-- How a register write came out, as the core sees it (40_transport R72, R76; 60_exceptions R160). -/
inductive WriteOutcome where
  | acknowledged
  | failed
  /-- not answered within the bound of a hardened build -/
  | timedOut
  | unanswered
  deriving DecidableEq, Repr, Inhabited

/-- One Transport call with its answer (44_display_controller R133). -/
inductive Call where
  | opened (addr : BitVec 7) (token : Nat)
  | openFailed (addr : BitVec 7)
  | openUnanswered (addr : BitVec 7)
  | write (token : Nat) (x : Xact) (outcome : WriteOutcome)
  | closed (token : Nat) (ok : Bool)
  deriving DecidableEq, Repr, Inhabited

/-- The diagnostic channel carries failures of `close` and nothing else (10_state R29). -/
inductive Diag where
  | closeFailed (token : Nat)
  deriving DecidableEq, Repr, Inhabited

/-- A response to the host: the operation, its result, its value (30_encoding R60). -/
structure Reply where
  op : HostOp
  result : Result
  value : Option Nat
  deriving DecidableEq, Repr, Inhabited

/-- The panel's configuration (10_state R27), its address window and its write position (R28). -/
structure PanelCfg where
  displayOn : Bool
  clkDiv : Byte
  muxRatio : Byte
  dispOffset : Byte
  startLine : BitVec 6
  chargePump : Byte
  memMode : Byte
  segRemap : Bool
  comScanDec : Bool
  comPins : Byte
  contrast : Byte
  preCharge : Byte
  vcomDesel : Byte
  ramDisplay : Bool
  inverted : Bool
  scrolling : Bool
  colStart : BitVec 7
  colEnd : BitVec 7
  pageStart : BitVec 3
  pageEnd : BitVec 3
  col : BitVec 7
  page : BitVec 3
  deriving DecidableEq, Repr, Inhabited

/-- Where the panel's receiver stands (30_encoding R66): at a command boundary, inside a multi-byte
command with the parameters received so far, or lost: the spec calls the panel unknown and gives no
way back (70_reset_and_hazards R175). -/
inductive Rx where
  | boundary
  | param (c : Cmd) (got : List Byte)
  | lost
  deriving DecidableEq, Repr, Inhabited

/-- The panel: configuration, display RAM (address `page*128 + column`), receiver. -/
structure Panel where
  cfg : PanelCfg
  ram : Memory
  rx : Rx
  deriving DecidableEq, Repr, Inhabited

/-- The state of the machine. -/
structure State where
  /-- the build's parameters, constant (00_scope R9, log 1) -/
  par : Params
  /-- `ST` -/
  st : Lifecycle
  /-- `HND` -/
  hnd : Hnd
  /-- `RES` -/
  res : Result
  /-- `SEQ`, the core's program counter -/
  seq : Nat
  /-- `BUSY` -/
  busy : Bool
  /-- `OPK` -/
  opk : OpKind
  /-- `PB`, which exists only from ENCODE to the end of its UPDATE (10_state R32) -/
  pb : Option Memory
  /-- `PG` -/
  pg : BitVec 3
  /-- `COL` -/
  col : BitVec 7
  /-- `ACC` -/
  acc : Byte
  /-- the surface of the UPDATE in progress, by value (10_state R26) -/
  surf : Option Surface
  /-- the write program's entries from `SEQ` on, less those of `cmdRest` (R133) -/
  queue : List Xact
  /-- the bytes of the command in progress that SEND_CMD has still to send (41_command_table R79) -/
  cmdRest : List Byte
  /-- the transaction whose write failed: the abort step is next (R133, R155) -/
  raised : Option Xact
  /-- what the last primitive returned -/
  ret : Ret
  /-- the answers the Transport's backend is scripted to give (40_transport R77, log 6) -/
  script : List Answer
  /-- how many answers have been drawn -/
  draws : Nat
  /-- how many handles the Transport has given out -/
  tokens : Nat
  /-- the observable history of Transport calls, oldest first (R133) -/
  trace : List Call
  /-- the last call of `trace` is never answered (70_reset_and_hazards R176) -/
  hung : Bool
  /-- the diagnostic channel (10_state R29) -/
  diags : List Diag
  /-- the operations the host will issue, in order (R181) -/
  reqs : List HostRequest
  /-- the responses handed to the host, oldest first (R140) -/
  replies : List Reply
  /-- the receiver behind the bus (10_state R27, R28, 92_eei_decisions D26) -/
  panel : Panel
  deriving DecidableEq, Repr, Inhabited

/-- Why the machine stops with a fault. -/
inductive Fault where
  /-- Raised by `step` in a state in which a Transport call is never answered: the configuration is
  stuck and no step is enabled (70_reset_and_hazards R176). Safe: the machine does nothing further. -/
  | transportUnanswered
  /-- Raised by a T_WRITE with `HND = UNOPENED`, which the core never calls (40_transport R72).
  Safe: the model stops where the spec gives no effect (log 23). -/
  | noOpenHandle
  /-- Raised by SEND_FRAME, and by the encode step, where there is no PageBuffer or no surface to read;
  no operation reads a byte ENCODE has not written (10_state R20). Safe (log 18). -/
  | noPageBuffer
  deriving DecidableEq, Repr

/-- Why the machine refuses. -/
inductive Refusal where
  /-- Raised by exec's arms for an instruction without a meaning. Safe. -/
  | notModelled (mnemonic : String)
  /-- Raised by a host operation issued while `BUSY`: no defined behaviour, 'refuse' (20_memory R51,
  93_implementation_defined U2). Safe (log 21). -/
  | hostWhileBusy
  /-- Raised by ENCODE, PACK and UPDATE_PROGRAM for a surface that is not 128 by 64: 'refuse' inside
  ENCODE (20_memory R34, 93_implementation_defined U1). Safe (log 24). -/
  | surfaceNotPanelSized
  /-- Raised by `step` for a failed write outside INITIALIZE and UPDATE; no run reaches it. Safe (log 36). -/
  | abortOutsideOperation
  deriving DecidableEq, Repr

/-- A panel configuration built from free bytes. -/
def PanelCfg.ofBytes (f : Nat → Byte) : PanelCfg where
  displayOn := (f 0).getLsbD 0
  clkDiv := f 1
  muxRatio := f 2
  dispOffset := f 3
  startLine := (f 4).setWidth 6
  chargePump := f 5
  memMode := f 6
  segRemap := (f 7).getLsbD 0
  comScanDec := (f 8).getLsbD 0
  comPins := f 9
  contrast := f 10
  preCharge := f 11
  vcomDesel := f 12
  ramDisplay := (f 13).getLsbD 0
  inverted := (f 14).getLsbD 0
  scrolling := (f 15).getLsbD 0
  colStart := (f 16).setWidth 7
  colEnd := (f 17).setWidth 7
  pageStart := (f 18).setWidth 3
  pageEnd := (f 19).setWidth 3
  col := (f 20).setWidth 7
  page := (f 21).setWidth 3

/-- The panel before anything was written to it: its configuration, window, write position and RAM are
unspecified (10_state R27, R28, R31; 93_implementation_defined U9), so they are free values (log 14). -/
def Panel.powerOn : Panel where
  cfg := PanelCfg.ofBytes Config.powerOnByte
  ram := []
  rx := .boundary

/-- The state after reset (10_state R31, 70_reset_and_hazards R166). -/
def State.reset : State where
  par := Params.default
  st := .uninitialized
  hnd := .unopened
  res := .ok
  seq := 0
  busy := false
  opk := .none
  pb := none
  pg := 0
  col := 0
  acc := 0
  surf := none
  queue := []
  cmdRest := []
  raised := none
  ret := .none
  script := []
  draws := 0
  tokens := 0
  trace := []
  hung := false
  diags := []
  reqs := []
  replies := []
  panel := Panel.powerOn

end Sys2Proof.Machine
end

