-- ==== Sys2Proof/Machine/Memory.lean ====
section
/-! DEFINITION. Reading and writing one byte of a memory (the PageBuffer, the panel RAM), and the
canonical form: addresses strictly rising, all below 1024 (20_memory R35, R40). -/

namespace Sys2Proof.Machine

/-- The byte at an address, if it has a value. -/
def Memory.read : Memory → Nat → Option Byte
  | [], _ => none
  | (k, b) :: rest, a => if k = a then some b else Memory.read rest a

/-- Write one byte, keeping the addresses rising. -/
def Memory.write : Memory → Nat → Byte → Memory
  | [], a, b => [(a, b)]
  | (k, v) :: rest, a, b =>
    if a < k then (a, b) :: (k, v) :: rest
    else if a = k then (a, b) :: rest
    else (k, v) :: Memory.write rest a b

/-- Canonical from address `lo` on. -/
def Memory.wfFrom : Nat → Memory → Bool
  | _, [] => true
  | lo, (k, _) :: rest => decide (lo ≤ k) && decide (k < 1024) && Memory.wfFrom (k + 1) rest

/-- The canonical form. An unlisted address has no value, so no entry can repeat it. -/
def Memory.wf (m : Memory) : Bool := Memory.wfFrom 0 m

/-- A list of bytes as a memory, the first at address `lo`. -/
def Memory.ofBytes : Nat → List Byte → Memory
  | _, [] => []
  | lo, b :: rest => (lo, b) :: Memory.ofBytes (lo + 1) rest

/-- The bytes of a memory by rising address. -/
def Memory.bytes (m : Memory) : List Byte := m.map Prod.snd

/-- PB as ENCODE leaves it: all 1024 bytes written (42_frame_encoder R111). -/
def encodeBuffer (surf : Surface) : Memory := Memory.ofBytes 0 (encodeBytes surf)

end Sys2Proof.Machine
end

