-- ==== Sys2Proof/Machine/CommandTable.lean ====
section
/-! DEFINITION. The CommandTable: the ordered initialization table (41_command_table R80), the window
commands (43_address_window R118), and the write programs they flatten to (R81, R122, R123). -/

namespace Sys2Proof.Machine

/-- The 17 initialization commands with their parameters, in the documented order (R80). -/
def initCommands : List (Cmd × List Byte) :=
  [(.dispoff, []), (.clkdiv, [0x80]), (.muxratio, [0x3F]), (.dispoffset, [0x00]), (.startline, []),
   (.chargepump, [0x14]), (.memmode, [0x00]), (.segremap, []), (.comscandec, []), (.compins, [0x12]),
   (.contrast, [0xCF]), (.precharge, [0xF1]), (.vcomdesel, [0x40]), (.resumeram, []),
   (.normaldisp, []), (.scrolloff, []), (.dispon, [])]

/-- The two addressing commands of every UPDATE: the whole panel (R118, R119). -/
def windowCommands : List (Cmd × List Byte) :=
  [(.coladdr, [0x00, 0x7F]), (.pageaddr, [0x00, 0x07])]

/-- A list of commands flattened to transactions (R79, R81). -/
def flattenCommands (o : OpTable) (cs : List (Cmd × List Byte)) : List Xact :=
  cs.flatMap fun c => commandXacts (o.op c.1) c.2

/-- INIT_SEQ as a write program: 26 entries (R81). -/
def initStream (o : OpTable) : List Xact := flattenCommands o initCommands

/-- SET_WINDOW as a write program: 6 entries (R118). -/
def windowStream (o : OpTable) : List Xact := flattenCommands o windowCommands

/-- SEND_FRAME as a write program: one data write per PageBuffer byte, ascending (R122). -/
def frameStream (m : Memory) : List Xact := (Memory.bytes m).map fun b => ⟨ctrlData, b⟩

/-- UPDATE_PROGRAM: the window stream, then the frame (R123). -/
def updateStream (o : OpTable) (surf : Surface) : List Xact :=
  windowStream o ++ frameStream (encodeBuffer surf)

end Sys2Proof.Machine
end

