-- ==== Sys2Proof/Machine/Panel.lean ====
section
/-! DEFINITION. The panel as a receiver of register writes (10_state R27, R28; 43_address_window R125,
R126; 70_reset_and_hazards R175; 92_eei_decisions D26). The window's mechanism is the one the spec marks as
general knowledge (93_implementation_defined G5, log 12). -/

namespace Sys2Proof.Machine

/-- The panel is unknown altogether: the spec does not say what it does with what it received. `n` indexes
the free value. -/
def Panel.garble (n : Nat) : Panel where
  cfg := PanelCfg.ofBytes (Config.freePanelByte n)
  ram := []
  rx := .lost

/-- The panel after an abort inside a multi-byte command: RAM as it was, everything else unknown, and not
restored by a later operation (70_reset_and_hazards R175). -/
def Panel.lose (p : Panel) (n : Nat) : Panel where
  cfg := PanelCfg.ofBytes (Config.freePanelByte n)
  ram := p.ram
  rx := .lost

/-- The panel RAM address of the write position (43_address_window R125). -/
def Panel.addr (p : Panel) : Nat := pageIndex p.cfg.page.toNat p.cfg.col.toNat

/-- The write position after a data byte in horizontal addressing mode (R125, G5). DESIGN CHOICE (log 40):
a position outside the window, of which the spec does not speak (10_state R28), steps by the same rule,
and wraps at the width of its fields where it meets no end of the window. -/
def PanelCfg.advance (c : PanelCfg) : PanelCfg :=
  if c.col = c.colEnd then
    { c with
      col := c.colStart
      page := if c.page = c.pageEnd then c.pageStart else c.page + 1 }
  else { c with col := c.col + 1 }

/-- Receive a data byte: it fills the write position, which then advances. Only the horizontal mode is
described (41_command_table R90); in another mode the panel becomes unknown. -/
def Panel.store (p : Panel) (n : Nat) (b : Byte) : Panel :=
  if p.cfg.memMode = 0x00 then
    { p with cfg := p.cfg.advance, ram := Memory.write p.ram p.addr b }
  else Panel.garble n

/-- The configuration a command's effect makes (41_command_table R84 to R104), or none where the spec
gives no effect (a window outside the panel, a wrong number of parameters). A window command puts the
write position at the window's start (43_address_window R120). -/
def PanelCfg.command (c : PanelCfg) (k : Cmd) (ps : List Byte) : Option PanelCfg :=
  match k, ps with
  | .dispoff, [] => some { c with displayOn := false }
  | .clkdiv, [p] => some { c with clkDiv := p }
  | .muxratio, [p] => some { c with muxRatio := p }
  | .dispoffset, [p] => some { c with dispOffset := p }
  | .startline, [] => some { c with startLine := 0 }
  | .chargepump, [p] => some { c with chargePump := p }
  | .memmode, [p] => some { c with memMode := p }
  | .segremap, [] => some { c with segRemap := true }
  | .comscandec, [] => some { c with comScanDec := true }
  | .compins, [p] => some { c with comPins := p }
  | .contrast, [p] => some { c with contrast := p }
  | .precharge, [p] => some { c with preCharge := p }
  | .vcomdesel, [p] => some { c with vcomDesel := p }
  | .resumeram, [] => some { c with ramDisplay := true }
  | .normaldisp, [] => some { c with inverted := false }
  | .scrolloff, [] => some { c with scrolling := false }
  | .dispon, [] => some { c with displayOn := true }
  | .coladdr, [a, b] =>
    if a ≤ b ∧ b ≤ 127 then
      some { c with colStart := a.setWidth 7, colEnd := b.setWidth 7, col := a.setWidth 7 }
    else none
  | .pageaddr, [a, b] =>
    if a ≤ b ∧ b ≤ 7 then
      some { c with pageStart := a.setWidth 3, pageEnd := b.setWidth 3, page := a.setWidth 3 }
    else none
  | .invertdisp, [] => some { c with inverted := true }
  | .scrollon, [] => some { c with scrolling := true }
  | _, _ => none

/-- Execute a complete command. -/
def Panel.apply (p : Panel) (n : Nat) (k : Cmd) (ps : List Byte) : Panel :=
  match p.cfg.command k ps with
  | some c => { p with cfg := c, rx := .boundary }
  | none => Panel.garble n

/-- Receive a byte of a command `k`, of which `got` has been received: execute it when complete. -/
def Panel.collect (p : Panel) (n : Nat) (k : Cmd) (got : List Byte) : Panel :=
  if got.length < k.arity then { p with rx := .param k got } else p.apply n k got

/-- What a command byte that is no opcode of the catalogue sets, where the catalogue has another value of the
operand that its family carries inside the opcode (30_encoding R63): the start line `L`, segment remap
`R = 0`, COM scan direction `D = 0`, and `E = 1`, all segments on. The catalogue's own byte of each
family fixes the family's other bits (log 12). -/
def embeddedSettings (o : OpTable) (b : Byte) : List (PanelCfg → PanelCfg) :=
  (if b ^^^ o.startline < 0x40 then
    [fun c => { c with startLine := (b ^^^ o.startline).setWidth 6 }] else []) ++
  (if b = o.segremap ^^^ 0x01 then [fun c => { c with segRemap := false }] else []) ++
  (if b = o.comscandec ^^^ 0x08 then [fun c => { c with comScanDec := false }] else []) ++
  (if b = o.resumeram ^^^ 0x01 then [fun c => { c with ramDisplay := false }] else [])

/-- Receive a command byte at a command boundary: the opcode of one command of the catalogue, else a
setting carried inside the opcode. A byte that a build gives to two commands leaves all but the RAM
unknown, since no command of the catalogue writes RAM (log 31); any other byte is outside the command
set (30_encoding R67, log 16). -/
def Panel.opcode (p : Panel) (o : OpTable) (n : Nat) (b : Byte) : Panel :=
  match o.named b with
  | [k] => p.collect n k []
  | [] =>
    match embeddedSettings o b with
    | [f] => { p with cfg := f p.cfg }
    | [] => Panel.garble n
    | _ => p.lose n
  | _ => p.lose n

/-- Receive one transaction (30_encoding R66): a data byte, an opcode at a command boundary, or a
parameter. -/
def Panel.receive (p : Panel) (o : OpTable) (n : Nat) (x : Xact) : Panel :=
  match p.rx with
  | .lost => Panel.garble n
  | .param k got => if x.ctrl = ctrlCmd then p.collect n k (got ++ [x.byte]) else Panel.garble n
  | .boundary =>
    if x.ctrl = ctrlData then p.store n x.byte
    else if x.ctrl = ctrlCmd then p.opcode o n x.byte
    else Panel.garble n

/-- The panel after a failed window write: the window and the write position are unspecified
(43_address_window R126), the rest is as it was. -/
def Panel.loseWindow (p : Panel) (n : Nat) : Panel :=
  { p with
    cfg := { p.cfg with
      colStart := (PanelCfg.ofBytes (Config.freePanelByte n)).colStart
      colEnd := (PanelCfg.ofBytes (Config.freePanelByte n)).colEnd
      pageStart := (PanelCfg.ofBytes (Config.freePanelByte n)).pageStart
      pageEnd := (PanelCfg.ofBytes (Config.freePanelByte n)).pageEnd
      col := (PanelCfg.ofBytes (Config.freePanelByte n)).col
      page := (PanelCfg.ofBytes (Config.freePanelByte n)).page } }

/-- The byte opens a window command. -/
def opensWindow (o : OpTable) (x : Xact) : Bool :=
  x.ctrl == ctrlCmd && (x.byte == o.coladdr || x.byte == o.pageaddr)

/-- A transaction that was not acknowledged: `applied` says whether it reached the panel (20_memory R54).
A command cut by it leaves the panel unknown: certainly cut at a parameter, possibly cut at the opcode of
a multi-byte command (70_reset_and_hazards R175); a failed window opcode that did not reach the panel
leaves the window and the write position unspecified all the same (43_address_window R126). -/
def Panel.unsure (p : Panel) (o : OpTable) (n : Nat) (applied : Bool) (x : Xact) : Panel :=
  match p.rx with
  | .param _ _ => p.lose n
  | _ =>
    if applied then
      match (p.receive o n x).rx with
      | .param _ _ => p.lose n
      | _ => p.receive o n x
    else if opensWindow o x then p.loseWindow n
    else p

/-- Whether the segment of RAM position `(page, column)` bit `n` is lit, where the spec says it
(42_frame_encoder R115, 43_address_window R125): a display that is off lights nothing (41_command_table
R84); a display that is on, pumped (R89), showing its RAM (R97) and not scrolling (R99) lights the 1 bits
in normal mode and the 0 bits in inverted mode (R98, R103); one that is on, pumped, in normal mode and
switched to 'all on' lights every segment (30_encoding R63). -/
def Panel.lit (p : Panel) (page col n : Nat) : Option Bool :=
  match p.rx with
  | .lost => none
  | _ =>
    if p.cfg.displayOn = false then some false
    else if p.cfg.ramDisplay ∧ p.cfg.chargePump = 0x14 ∧ p.cfg.scrolling = false then
      (Memory.read p.ram (pageIndex page col)).map fun b => b.getLsbD n != p.cfg.inverted
    else if p.cfg.ramDisplay = false ∧ p.cfg.chargePump = 0x14 ∧ p.cfg.inverted = false then some true
    else none

end Sys2Proof.Machine
end

