-- ==== Sys2Proof/Machine/Ops.lean ====
section
/-! DEFINITION. The named operations over the state: drawing the Transport's answers, the three Transport
calls (40_transport R71 to R76), the write step (44_display_controller R133), accepting and finishing an
operation, and the abort path, which is this block's trap entry (60_exceptions R155). There is no return
from it (R157): the result is the operation's, and the host goes on. -/

namespace Sys2Proof.Machine

/-- Apply a function to the next state of an outcome. -/
def thenDo (r : Host.Outcome State Fault Refusal) (f : State → State) :
    Host.Outcome State Fault Refusal :=
  match r with
  | .next t => .next (f t)
  | .fault e => .fault e
  | .refused e => .refused e

/-- The answer the Transport gives to the next call: the scripted one, else a free value
(40_transport R76, R77). -/
def State.answer (s : State) : Answer :=
  match s.script with
  | a :: _ => a
  | [] => Config.freeAnswer s.draws

/-- The answer has been drawn. -/
def State.drawn (s : State) : State :=
  { s with script := s.script.tail, draws := s.draws + 1 }

/-- `BusOpen(addr)` (40_transport R71): a fresh handle, a failure, or never an answer. -/
def transportOpen (addr : BitVec 7) (s : State) : State :=
  match s.answer with
  | .ok =>
    { s.drawn with
      tokens := s.tokens + 1
      trace := s.trace ++ [.opened addr (s.tokens + 1)]
      ret := .handle (s.tokens + 1) }
  | .fail _ => { s.drawn with trace := s.trace ++ [.openFailed addr], ret := .openError }
  | .silent _ =>
    { s.drawn with trace := s.trace ++ [.openUnanswered addr], ret := .none, hung := true }

/-- `writeRegister(h, ctrl, byte)` (40_transport R72): acknowledged, failed, or never answered; in a
build with `WRITE_TIMEOUT` the last is a failed write (60_exceptions R160). The panel receives an
acknowledged transaction, and one that is not with the draw of 20_memory R54. -/
def transportWrite (h : Nat) (x : Xact) (s : State) : State :=
  match s.answer with
  | .ok =>
    { s.drawn with
      trace := s.trace ++ [.write h x .acknowledged]
      panel := s.panel.receive s.par.ops s.draws x
      ret := .ok }
  | .fail applied =>
    { s.drawn with
      trace := s.trace ++ [.write h x .failed]
      panel := s.panel.unsure s.par.ops s.draws applied x
      ret := .writeError }
  | .silent applied =>
    match s.par.writeTimeout with
    | some _ =>
      { s.drawn with
        trace := s.trace ++ [.write h x .timedOut]
        panel := s.panel.unsure s.par.ops s.draws applied x
        ret := .writeError }
    | none =>
      { s.drawn with
        trace := s.trace ++ [.write h x .unanswered]
        panel := s.panel.unsure s.par.ops s.draws applied x
        ret := .none
        hung := true }

/-- `BusClose(h)` (40_transport R73): a failure goes to the diagnostic channel only, and a close never
hangs (92_eei_decisions D17, log 8). -/
def transportClose (h : Nat) (s : State) : State :=
  match s.answer with
  | .ok => { s.drawn with trace := s.trace ++ [.closed h true], ret := .ok }
  | .fail _ =>
    { s.drawn with
      trace := s.trace ++ [.closed h false]
      diags := s.diags ++ [.closeFailed h]
      ret := .ok }
  | .silent _ =>
    { s.drawn with
      trace := s.trace ++ [.closed h false]
      diags := s.diags ++ [.closeFailed h]
      ret := .ok }

/-- T_WRITE (40_transport R72) through the open handle; the core never calls it without one. -/
def writeRegister (x : Xact) (s : State) : Host.Outcome State Fault Refusal :=
  match s.hnd with
  | .opened h => .next (transportWrite h x s)
  | .unopened => .fault .noOpenHandle

/-- T_CLOSE (40_transport R73): a no-op on the sentinel. Its handle is HND, implicitly, as the
table's row says (opcode_table.json, T_CLOSE). -/
def closeBus (s : State) : State :=
  match s.hnd with
  | .opened h => transportClose h s
  | .unopened => { s with ret := .ok }

/-- What SEND_CMD and SEND_FRAME do with T_WRITE's answer (41_command_table R79, 43_address_window R122):
the program counter advances by one on success; a failure is raised; no answer leaves the step stuck. -/
def acknowledge (x : Xact) (t : State) : State :=
  match t.ret with
  | .ok => { t with seq := t.seq + 1 }
  | .writeError => { t with raised := some x }
  | _ => t

/-- The write step of 44_display_controller R133. -/
def sendByte (x : Xact) (s : State) : Host.Outcome State Fault Refusal :=
  thenDo (writeRegister x s) (acknowledge x)

/-- SEND_CMD (41_command_table R79): the opcode is sent now, the parameters wait in `cmdRest`, one step
each, since a command is not atomic (20_memory R45). -/
def sendCommand (op : Byte) (params : List Byte) (s : State) : Host.Outcome State Fault Refusal :=
  sendByte ⟨ctrlCmd, op⟩ { s with cmdRest := params ++ s.cmdRest }

/-- SEND_CMD goes on with the next byte of its command. -/
def resumeCommand (b : Byte) (rest : List Byte) (s : State) : Host.Outcome State Fault Refusal :=
  sendByte ⟨ctrlCmd, b⟩ { s with cmdRest := rest }

/-- The page-stride counters after one data byte: `{PG, COL}` counts as one 10-bit number
(43_address_window R121). -/
def strideStep (x : Xact) (t : State) : State :=
  match t.ret with
  | .ok =>
    let t' := acknowledge x t
    { t' with col := t.col + 1, pg := if t.col = 127 then t.pg + 1 else t.pg }
  | _ => acknowledge x t

/-- An operation is accepted: `BUSY` is set and nothing of an earlier operation is left. -/
def accept (s : State) : State :=
  { s with
    busy := true
    opk := .none
    pb := none
    surf := none
    queue := []
    cmdRest := []
    raised := none }

/-- A write program starts (10_state R18). -/
def startProgram (k : OpKind) (prog : List Xact) (s : State) : State :=
  { s with opk := k, seq := 0, queue := prog }

/-- `finish(v)` of 44_display_controller: `RES`, `OPK` and `BUSY` are written and the result is handed to
the host; the PageBuffer and the pending operation are discarded (10_state R32). -/
def finish (op : HostOp) (v : Result) (s : State) : State :=
  { s with
    res := v
    opk := .none
    busy := false
    pb := none
    surf := none
    queue := []
    cmdRest := []
    raised := none
    replies := s.replies ++ [⟨op, v, none⟩] }

/-- Close the handle, if it is open, and write the sentinel back (10_state R15, R16). -/
def releaseHandle (s : State) : State :=
  { closeBus s with hnd := .unopened }

/-- THE ABORT PATH, taking this block's one kind of exception (44_display_controller R133 row abort,
60_exceptions R155): the index of the failed write is saved in the result; INITIALIZE closes the handle
and goes back to `Uninitialized`, UPDATE changes neither; control goes back to the host. -/
def abortOperation (x : Xact) (s : State) : Host.Outcome State Fault Refusal :=
  match s.opk with
  | .init =>
    .next (finish .initializeOp (.deviceInitError (.transportWriteError s.seq x))
      { releaseHandle s with st := .uninitialized })
  | .update => .next (finish .update (.transportWriteError s.seq x) s)
  | .none => .refused .abortOutsideOperation

/-- The complete step of 44_display_controller R133. -/
def completeOperation (s : State) : State :=
  match s.opk with
  | .init => finish .initializeOp .ok { s with st := .ready }
  | .update => finish .update .ok s
  | .none => s

/-- What INITIALIZE does with T_OPEN's answer (44_display_controller R128, R133 row open). -/
def afterOpen (t : State) : State :=
  match t.ret with
  | .handle h => startProgram .init (initStream t.par.ops) { t with hnd := .opened h }
  | .openError =>
    finish .initializeOp (.deviceInitError .transportOpenError) { t with st := .uninitialized }
  | _ => t

end Sys2Proof.Machine
end

