-- ==== Sys2Proof/Machine/Flags.lean ====
section
/-! DEFINITION. The core has no condition codes (10_state R23): its one status is `RES`. This file gives the
codes of the results (60_exceptions R150) and the acceptance tests (R154). -/

namespace Sys2Proof.Machine

/-- The code of a Transport error as the cause of `DeviceInitError` (60_exceptions R150). -/
def causeCode (e : ErrCodes) : Cause → Nat
  | .transportOpenError => e.transportOpenError
  | .transportWriteError _ _ => e.transportWriteError

/-- The code of a result on the host's result port, by the build's `ERR_*` (60_exceptions R150). -/
def resultCode (e : ErrCodes) : Result → Nat
  | .ok => e.ok
  | .transportOpenError => e.transportOpenError
  | .transportWriteError _ _ => e.transportWriteError
  | .deviceInitError _ => e.deviceInitError
  | .invalidSurfaceError => e.invalidSurfaceError
  | .invalidStateError _ _ => e.invalidStateError

/-- INITIALIZE is rejected in `Closed` under the policy `reject` (44_display_controller R136). -/
def initRejected (s : State) : Bool :=
  s.st == .closed && s.par.initFromClosed == .reject

/-- The checks of UPDATE, in order (60_exceptions R154): the state, then the dimensions. -/
def updateError (surf : Surface) (s : State) : Option Result :=
  if s.st = .ready then
    if panelSized surf then none else some .invalidSurfaceError
  else some (.invalidStateError .update s.st)

end Sys2Proof.Machine
end

