-- ==== Sys2Proof/Machine/Commands.lean ====
section
/-! DEFINITION. SEND_CMD, the 21 wire commands, each one call of it with its opcode parameter `OP_*`
(41_command_table), and the data write (30_encoding R58). -/

namespace Sys2Proof.Machine

/-- SEND_CMD (41_command_table R79). -/
def execSendCmd (op : Byte) (params : List Byte) (s : State) : Host.Outcome State Fault Refusal :=
  sendCommand op params s

/-- DISPOFF (41_command_table R84). -/
def execDispoff (s : State) : Host.Outcome State Fault Refusal :=
  sendCommand s.par.ops.dispoff [] s

/-- CLKDIV (41_command_table R85). -/
def execClkdiv (p : Byte) (s : State) : Host.Outcome State Fault Refusal :=
  sendCommand s.par.ops.clkdiv [p] s

/-- MUXRATIO (41_command_table R86). -/
def execMuxratio (p : Byte) (s : State) : Host.Outcome State Fault Refusal :=
  sendCommand s.par.ops.muxratio [p] s

/-- DISPOFFSET (41_command_table R87). -/
def execDispoffset (p : Byte) (s : State) : Host.Outcome State Fault Refusal :=
  sendCommand s.par.ops.dispoffset [p] s

/-- STARTLINE (41_command_table R88). -/
def execStartline (s : State) : Host.Outcome State Fault Refusal :=
  sendCommand s.par.ops.startline [] s

/-- CHARGEPUMP (41_command_table R89). -/
def execChargepump (p : Byte) (s : State) : Host.Outcome State Fault Refusal :=
  sendCommand s.par.ops.chargepump [p] s

/-- MEMMODE (41_command_table R90). -/
def execMemmode (p : Byte) (s : State) : Host.Outcome State Fault Refusal :=
  sendCommand s.par.ops.memmode [p] s

/-- SEGREMAP (41_command_table R91). -/
def execSegremap (s : State) : Host.Outcome State Fault Refusal :=
  sendCommand s.par.ops.segremap [] s

/-- COMSCANDEC (41_command_table R92). -/
def execComscandec (s : State) : Host.Outcome State Fault Refusal :=
  sendCommand s.par.ops.comscandec [] s

/-- COMPINS (41_command_table R93). -/
def execCompins (p : Byte) (s : State) : Host.Outcome State Fault Refusal :=
  sendCommand s.par.ops.compins [p] s

/-- CONTRAST (41_command_table R94). -/
def execContrast (p : Byte) (s : State) : Host.Outcome State Fault Refusal :=
  sendCommand s.par.ops.contrast [p] s

/-- PRECHARGE (41_command_table R95). -/
def execPrecharge (p : Byte) (s : State) : Host.Outcome State Fault Refusal :=
  sendCommand s.par.ops.precharge [p] s

/-- VCOMDESEL (41_command_table R96). -/
def execVcomdesel (p : Byte) (s : State) : Host.Outcome State Fault Refusal :=
  sendCommand s.par.ops.vcomdesel [p] s

/-- RESUMERAM (41_command_table R97). -/
def execResumeram (s : State) : Host.Outcome State Fault Refusal :=
  sendCommand s.par.ops.resumeram [] s

/-- NORMALDISP (41_command_table R98). -/
def execNormaldisp (s : State) : Host.Outcome State Fault Refusal :=
  sendCommand s.par.ops.normaldisp [] s

/-- SCROLLOFF (41_command_table R99). -/
def execScrolloff (s : State) : Host.Outcome State Fault Refusal :=
  sendCommand s.par.ops.scrolloff [] s

/-- DISPON (41_command_table R100). -/
def execDispon (s : State) : Host.Outcome State Fault Refusal :=
  sendCommand s.par.ops.dispon [] s

/-- COLADDR (41_command_table R101). -/
def execColaddr (first last : Byte) (s : State) : Host.Outcome State Fault Refusal :=
  sendCommand s.par.ops.coladdr [first, last] s

/-- PAGEADDR (41_command_table R102). -/
def execPageaddr (first last : Byte) (s : State) : Host.Outcome State Fault Refusal :=
  sendCommand s.par.ops.pageaddr [first, last] s

/-- INVERTDISP (41_command_table R103); no operation of the core sends it. -/
def execInvertdisp (s : State) : Host.Outcome State Fault Refusal :=
  sendCommand s.par.ops.invertdisp [] s

/-- SCROLLON (41_command_table R104); no operation of the core sends it. -/
def execScrollon (s : State) : Host.Outcome State Fault Refusal :=
  sendCommand s.par.ops.scrollon [] s

/-- DATA (30_encoding R58, 43_address_window R122): one payload byte behind control byte `0x40`; the
page-stride counters step when it is acknowledged. -/
def execData (d : Byte) (s : State) : Host.Outcome State Fault Refusal :=
  thenDo (writeRegister ⟨ctrlData, d⟩ s) (strideStep ⟨ctrlData, d⟩)

end Sys2Proof.Machine
end

