-- ==== Sys2Proof/Machine/Encoder.lean ====
section
/-! DEFINITION. The framebuffer encoder's primitives (42_frame_encoder). They make no Transport call and
read no state of the core (R106). -/

namespace Sys2Proof.Machine

/-- CLASSIFY (R107): returns 1 for ink, 0 for background. -/
def execClassify (v : Intensity) (s : State) : Host.Outcome State Fault Refusal :=
  .next { s with ret := .bit (ink v) }

/-- PACK (R110): assembles the byte in `ACC` and returns it. -/
def execPack (surf : Surface) (page : BitVec 3) (x : BitVec 7) (s : State) :
    Host.Outcome State Fault Refusal :=
  if panelSized surf then
    .next { s with
      acc := packByte surf page.toNat x.toNat
      ret := .byte (packByte surf page.toNat x.toNat) }
  else .refused .surfaceNotPanelSized

/-- ENCODE (R111): writes all 1024 bytes of PB; the loop variables stand at their last values (log 32). -/
def execEncode (surf : Surface) (s : State) : Host.Outcome State Fault Refusal :=
  if panelSized surf then
    .next { s with
      pb := some (encodeBuffer surf)
      pg := 7
      col := 127
      acc := packByte surf 7 127
      ret := .ok }
  else .refused .surfaceNotPanelSized

end Sys2Proof.Machine
end

