-- ==== Sys2Proof/Machine/HostOps.lean ====
section
/-! DEFINITION. The host operations (44_display_controller R128 to R132). INITIALIZE and UPDATE are the
issue and check steps of R133; the open, write, encode, complete and abort steps follow one by one. -/

namespace Sys2Proof.Machine

/-- INITIALIZE (R128): rejected in `Closed` under `reject` (R136); with an open handle the program starts
at once (R135), else the open step is next. -/
def execInitialize (s : State) : Host.Outcome State Fault Refusal :=
  if s.busy then .refused .hostWhileBusy
  else if initRejected s then .next (finish .initializeOp (.invalidStateError .initializeOp s.st) s)
  else
    match s.hnd with
    | .unopened => .next (accept s)
    | .opened _ => .next (startProgram .init (initStream s.par.ops) (accept s))

/-- UPDATE (R129): the checks, then the window stream; the surface is taken by value (10_state R26). -/
def execUpdate (surf : Surface) (s : State) : Host.Outcome State Fault Refusal :=
  if s.busy then .refused .hostWhileBusy
  else
    match updateError surf s with
    | some e => .next (finish .update e s)
    | none =>
      .next (startProgram .update (windowStream s.par.ops) { accept s with surf := some surf })

/-- DISPOSE (R130): valid from any state; at most one Transport call, so one step. -/
def execDispose (s : State) : Host.Outcome State Fault Refusal :=
  if s.busy then .refused .hostWhileBusy
  else
    match s.hnd with
    | .unopened => .next (finish .dispose .ok { s with st := .closed })
    | .opened _ => .next (finish .dispose .ok { releaseHandle s with st := .closed })

/-- GET_WIDTH (R131): a constant, in every state; `RES` is not written. -/
def execGetWidth (s : State) : Host.Outcome State Fault Refusal :=
  .next { s with
    ret := .dim displayWidth
    replies := s.replies ++ [⟨.getWidth, .ok, some displayWidth⟩] }

/-- GET_HEIGHT (R132). -/
def execGetHeight (s : State) : Host.Outcome State Fault Refusal :=
  .next { s with
    ret := .dim displayHeight
    replies := s.replies ++ [⟨.getHeight, .ok, some displayHeight⟩] }

/-- The reset event (70_reset_and_hazards R165 to R168), which comes from outside and is no step: the
core's state becomes that of R31, the handle is not closed, no result is reported. The panel keeps what
it holds (R167); a command cut by the reset leaves it unknown (R168, R175). The build's parameters, the
Transport's own state and the host's list of requests stay. -/
def coreReset (s : State) : State :=
  { State.reset with
    par := s.par
    script := s.script
    draws := s.draws + 1
    tokens := s.tokens
    reqs := s.reqs
    panel :=
      match s.panel.rx with
      | .param _ _ => s.panel.lose s.draws
      | _ => s.panel }

end Sys2Proof.Machine
end

