-- ==== Sys2Proof/Machine/Pseudo.lean ====
section
/-! DEFINITION. The pseudo-instructions: names for fixed sequences, each expanding to transactions
(30_encoding R70). The expansion goes in front of what the write program still holds. -/

namespace Sys2Proof.Machine

/-- The transactions are the next ones to be sent. -/
def expand (xs : List Xact) (s : State) : State := { s with queue := xs ++ s.queue }

/-- INIT_SEQ (41_command_table R80, R81). -/
def execInitSeq (s : State) : Host.Outcome State Fault Refusal :=
  .next (expand (initStream s.par.ops) s)

/-- SET_WINDOW (43_address_window R118). -/
def execSetWindow (s : State) : Host.Outcome State Fault Refusal :=
  .next (expand (windowStream s.par.ops) s)

/-- SEND_FRAME (43_address_window R122): the whole PageBuffer, from page 0 and column 0. -/
def execSendFrame (s : State) : Host.Outcome State Fault Refusal :=
  match s.pb with
  | some m => .next (expand (frameStream m) { s with pg := 0, col := 0 })
  | none => .fault .noPageBuffer

/-- UPDATE_PROGRAM (43_address_window R123): SET_WINDOW, then SEND_FRAME of `ENCODE(surf)`. -/
def execUpdateProgram (surf : Surface) (s : State) : Host.Outcome State Fault Refusal :=
  if panelSized surf then
    .next (expand (updateStream s.par.ops surf)
      { s with pb := some (encodeBuffer surf), acc := packByte surf 7 127, pg := 0, col := 0 })
  else .refused .surfaceNotPanelSized

end Sys2Proof.Machine
end

