-- ==== Sys2Proof/Machine/Transport.lean ====
section
/-! DEFINITION. The Transport operations as the core calls them (40_transport). -/

namespace Sys2Proof.Machine

/-- T_OPEN (R71). What INITIALIZE does with the answer is `afterOpen`. -/
def execTOpen (addr : BitVec 7) (s : State) : Host.Outcome State Fault Refusal :=
  .next (transportOpen addr s)

/-- T_WRITE (R72). The program counter is SEND_CMD's and SEND_FRAME's to advance. -/
def execTWrite (ctrl byte : Byte) (s : State) : Host.Outcome State Fault Refusal :=
  writeRegister ⟨ctrl, byte⟩ s

/-- T_CLOSE (R73). The caller then writes the sentinel back. -/
def execTClose (s : State) : Host.Outcome State Fault Refusal :=
  .next (closeBus s)

end Sys2Proof.Machine
end

