-- ==== Sys2Proof/Machine/Dispatch.lean ====
section
/-! DEFINITION. One arm per instruction, each one direct call of its meaning. -/

namespace Sys2Proof.Machine

def exec (i : Instr) (s : State) : Host.Outcome State Fault Refusal :=
  match i with
  | .initializeOp => Sys2Proof.Machine.execInitialize s
  | .update surf => Sys2Proof.Machine.execUpdate surf s
  | .dispose => Sys2Proof.Machine.execDispose s
  | .getWidth => Sys2Proof.Machine.execGetWidth s
  | .getHeight => Sys2Proof.Machine.execGetHeight s
  | .tOpen addr => Sys2Proof.Machine.execTOpen addr s
  | .tWrite ctrl byte => Sys2Proof.Machine.execTWrite ctrl byte s
  | .tClose => Sys2Proof.Machine.execTClose s
  | .sendCmd op params => Sys2Proof.Machine.execSendCmd op params s
  | .classify v => Sys2Proof.Machine.execClassify v s
  | .pack surf page x => Sys2Proof.Machine.execPack surf page x s
  | .encode surf => Sys2Proof.Machine.execEncode surf s
  | .initSeq => Sys2Proof.Machine.execInitSeq s
  | .setWindow => Sys2Proof.Machine.execSetWindow s
  | .sendFrame => Sys2Proof.Machine.execSendFrame s
  | .updateProgram surf => Sys2Proof.Machine.execUpdateProgram surf s
  | .dispoff => Sys2Proof.Machine.execDispoff s
  | .clkdiv p => Sys2Proof.Machine.execClkdiv p s
  | .muxratio p => Sys2Proof.Machine.execMuxratio p s
  | .dispoffset p => Sys2Proof.Machine.execDispoffset p s
  | .startline => Sys2Proof.Machine.execStartline s
  | .chargepump p => Sys2Proof.Machine.execChargepump p s
  | .memmode p => Sys2Proof.Machine.execMemmode p s
  | .segremap => Sys2Proof.Machine.execSegremap s
  | .comscandec => Sys2Proof.Machine.execComscandec s
  | .compins p => Sys2Proof.Machine.execCompins p s
  | .contrast p => Sys2Proof.Machine.execContrast p s
  | .precharge p => Sys2Proof.Machine.execPrecharge p s
  | .vcomdesel p => Sys2Proof.Machine.execVcomdesel p s
  | .resumeram => Sys2Proof.Machine.execResumeram s
  | .normaldisp => Sys2Proof.Machine.execNormaldisp s
  | .scrolloff => Sys2Proof.Machine.execScrolloff s
  | .dispon => Sys2Proof.Machine.execDispon s
  | .coladdr first last => Sys2Proof.Machine.execColaddr first last s
  | .pageaddr first last => Sys2Proof.Machine.execPageaddr first last s
  | .invertdisp => Sys2Proof.Machine.execInvertdisp s
  | .scrollon => Sys2Proof.Machine.execScrollon s
  | .data d => Sys2Proof.Machine.execData d s

end Sys2Proof.Machine
end

