-- ==== Sys2Proof/Machine/Fetch.lean ====
section
/-! DEFINITION. Which of the steps of 44_display_controller R133 is enabled, and the instruction it runs:
the host's next request while idle, the write program's next entry while an operation is in progress. -/

namespace Sys2Proof.Machine

/-- What the machine does next. `run i s'` runs instruction `i` in `s'`, the state with the instruction's
words taken from where they were fetched. -/
inductive Action where
  /-- a Transport call is never answered: no step is enabled -/
  | stuck
  /-- the host has issued nothing: the core does nothing -/
  | idle
  /-- a request code that spells no operation is ignored (30_encoding R68) -/
  | ignore (s' : State)
  | run (i : Instr) (s' : State)
  /-- the open step: T_OPEN, then INITIALIZE's use of its answer -/
  | openBus
  /-- the write step inside a command: its next byte -/
  | resume (b : Byte) (rest : List Byte)
  /-- the encode step: ENCODE, then SEND_FRAME starts -/
  | encodeFrame (surf : Surface)
  | complete
  | abort (x : Xact)
  /-- the write step for an entry that the decoder names no command for: it is sent as it stands -/
  | send (x : Xact) (s' : State)
  /-- the encode step has no surface -/
  | noSurface

/-- The next entry of the write program, or, at its end, the encode or the complete step. The core sends
the entry at SEQ whatever it is (R133): the decoder names the instruction the entries spell, and where
it names none, or in a build with equal opcodes another one, the same bytes go out (log 31). -/
def nextEntry (s : State) : Action :=
  match s.cmdRest with
  | b :: rest => .resume b rest
  | [] =>
    match s.queue with
    | x :: rest =>
      match decodeWire s.par.ops (x :: rest) with
      | .ok i rest' => .run i { s with queue := rest' }
      | .reject _ => .send x { s with queue := rest }
    | [] =>
      match s.opk, s.pb with
      | .update, none =>
        match s.surf with
        | some surf => .encodeFrame surf
        | none => .noSurface
      | _, _ => .complete

/-- The next request of the host. -/
def nextRequest (s : State) : Action :=
  match s.reqs with
  | [] => .idle
  | r :: rest =>
    match decodeHost s.par.ops.host r with
    | some i => .run i { s with reqs := rest }
    | none => .ignore { s with reqs := rest }

/-- Exactly one step is enabled at a time (R133). -/
def nextAction (s : State) : Action :=
  if s.hung then .stuck
  else if s.busy then
    match s.raised with
    | some x => .abort x
    | none =>
      match s.opk with
      | .none => .openBus
      | .init => nextEntry s
      | .update => nextEntry s
  else nextRequest s

/-- The state with an open handle, as an operation in progress has one. -/
def holdHandle (h : Hnd) : Hnd :=
  match h with
  | .unopened => .opened 0
  | .opened t => .opened t

/-- The write program of an operation in progress has these transactions at `SEQ` (log 20). -/
def placeWire (xs : List Xact) (s : State) : State :=
  { s with
    hung := false
    busy := true
    raised := none
    opk := if s.opk = .none then .init else s.opk
    hnd := holdHandle s.hnd
    cmdRest := []
    queue := xs }

/-- The host's next request is this one, and the core is idle. -/
def placeRequest (r : HostRequest) (s : State) : State :=
  { s with hung := false, busy := false, reqs := r :: s.reqs }

end Sys2Proof.Machine
end

