-- ==== Sys2Proof/Machine/Step.lean ====
section
/-! DEFINITION. One step of the machine (44_display_controller R133): one Transport call with its answer, or
one state-only action (00_scope R7). -/

namespace Sys2Proof.Machine

/-- One step. -/
def step (s : State) : Host.Outcome State Fault Refusal :=
  match nextAction s with
  | .stuck => .fault .transportUnanswered
  | .idle => .next s
  | .ignore s' => .next s'
  | .run i s' => exec i s'
  | .openBus => thenDo (exec (.tOpen devAddr) s) afterOpen
  | .resume b rest => resumeCommand b rest s
  | .encodeFrame surf =>
    match exec (.encode surf) s with
    | .next t => exec .sendFrame t
    | .fault e => .fault e
    | .refused e => .refused e
  | .complete => .next (completeOperation s)
  | .abort x => abortOperation x s
  | .send x s' => sendByte x s'
  | .noSurface => .fault .noPageBuffer

/-- `s` with the instruction of an opcode-table row where the next step fetches (log 20, log 30). -/
def State.withFetchWord (s : State) (nbits w : Nat) : State :=
  if tableIsHost nbits w then placeRequest (tableRequest w) s
  else placeWire (tableWords nbits w) s

end Sys2Proof.Machine
end

