-- ==== Sys2Proof/Safety.lean ====
section
/-! DEFINITION. The terms the statements use: ended and stuck configurations, the invariant of the machine,
what an instruction leaves unchanged, and the counts over the history of Transport calls. -/

namespace Sys2Proof.Machine

/-- A run has ended: its last operation has reported its result (70_reset_and_hazards R181). DESIGN CHOICE
(log 38): the requests still waiting in `reqs` are operations of the run, so none may be waiting; a
run of no operations has ended at reset. -/
def State.ended (s : State) : Prop := s.busy = false ∧ s.reqs = []

/-- A configuration is stuck, not ended (R176, R181). -/
def State.stuck (s : State) : Prop := s.busy = true ∧ s.hung = true

/-- The byte of PB at an index, if PB exists. -/
def State.pbByte (s : State) (i : Nat) : Option Byte :=
  match s.pb with
  | some m => Memory.read m i
  | none => none

/-- The byte of the panel RAM at `page*128 + column`, if it is known. -/
def State.ramByte (s : State) (a : Nat) : Option Byte := Memory.read s.panel.ram a

/-- The number an intensity stands for (42_frame_encoder R108), if it stands for one. -/
def intensityVal : Intensity → Option ℚ
  | .ratio num denPred => some ((num : ℚ) / ((denPred : ℚ) + 1))
  | .per255 u => some ((u.toNat : ℚ) / 255)
  | .per256 u => some ((u.toNat : ℚ) / 256)
  | .float negative significand exponent =>
    some ((if negative then -(significand : ℚ) else significand) * (2 : ℚ) ^ exponent)
  | .infinity _ => none
  | .nan => none
  | .own n =>
    match Config.ownIntensity n with
    | .number num denPred => some ((num : ℚ) / ((denPred : ℚ) + 1))
    | .infinity _ => none
    | .nan => none

/-! ### The write program and where the core stands in it -/

/-- `prog` of 44_display_controller R133: the write program of the operation in progress, as far as it is
determined (the frame of an UPDATE is, once PB is built). -/
def State.program (s : State) : List Xact :=
  match s.opk with
  | .none => []
  | .init => initStream s.par.ops
  | .update =>
    match s.pb with
    | some m => windowStream s.par.ops ++ frameStream m
    | none => windowStream s.par.ops

/-- The entries not yet given to the Transport. -/
def State.unsent (s : State) : List Xact := (s.cmdRest.map fun b => ⟨ctrlCmd, b⟩) ++ s.queue

/-- How many entries have been given to the Transport: `SEQ` acknowledged ones, and one more where a write
failed or is never answered. -/
def State.issued (s : State) : Nat :=
  if s.hung || s.raised.isSome then s.seq + 1 else s.seq

/-- The index is no parameter position of the program (70_reset_and_hazards R175). -/
def commandBoundary : OpKind → Nat → Bool
  | .none, _ => true
  | .init, n => decide (n ∉ [2, 4, 6, 9, 11, 15, 17, 19, 21])
  | .update, n => decide (n ∉ [1, 2, 4, 5])

/-- What an idle core holds of an operation: nothing. -/
def State.cleared (s : State) : Prop :=
  s.opk = .none ∧ s.hung = false ∧ s.raised = none ∧ s.pb = none ∧ s.surf = none ∧ s.queue = [] ∧
    s.cmdRest = []

/-- The invariant of the machine. It rules out the states no run reaches. -/
structure State.Inv (s : State) : Prop where
  /-- the memories are canonical -/
  ram : Memory.wf s.panel.ram = true
  /-- an idle core holds nothing of an operation (10_state R19, R32) -/
  idle : s.busy = false → s.cleared
  /-- the handle is open exactly in `Ready` and in an INITIALIZE after its open (10_state R15) -/
  handle : s.hnd ≠ .unopened ↔ (s.st = .ready ∨ s.opk = .init)
  /-- before its open step INITIALIZE holds no handle and no program -/
  opening : s.busy = true → s.opk = .none →
    s.hnd = .unopened ∧ s.raised = none ∧ s.queue = [] ∧ s.cmdRest = [] ∧ s.pb = none
  /-- INITIALIZE builds no PageBuffer -/
  initPb : s.opk = .init → s.pb = none
  /-- an UPDATE runs in `Ready`, over a surface of the panel's size; PB is what ENCODE makes of it -/
  update : s.opk = .update → s.st = .ready ∧
    ∃ surf, s.surf = some surf ∧ panelSized surf = true ∧ (s.pb = none ∨ s.pb = some (encodeBuffer surf))
  /-- a failed write and an unanswered call exclude each other -/
  oneEnd : s.raised ≠ none → s.hung = false
  /-- `SEQ` (10_state R18) -/
  seqBound : s.seq ≤ 1030
  /-- what is left to send is the rest of the program from where the core stands -/
  program : s.opk ≠ .none → s.unsent = s.program.drop s.issued ∧ s.issued ≤ s.program.length
  /-- where the opcodes are distinct (30_encoding R65), between commands the core stands at a command
  boundary -/
  boundary : s.par.ops.distinct = true → s.opk ≠ .none → commandBoundary s.opk (s.issued + s.cmdRest.length) = true

/-! ### What an instruction leaves unchanged -/

/-- The build and the host's side. -/
def SameHost (s t : State) : Prop :=
  t.par = s.par ∧ t.reqs = s.reqs ∧ t.replies = s.replies

/-- The controller's registers and the pending operation. -/
def SameController (s t : State) : Prop :=
  t.st = s.st ∧ t.hnd = s.hnd ∧ t.res = s.res ∧ t.busy = s.busy ∧ t.opk = s.opk ∧ t.surf = s.surf

/-- The write program and the core's place in it. -/
def SameProgram (s t : State) : Prop :=
  t.seq = s.seq ∧ t.queue = s.queue ∧ t.cmdRest = s.cmdRest ∧ t.raised = s.raised

/-- The encoder's registers, and every byte of PB. -/
def SameEncoder (s t : State) : Prop :=
  t.pg = s.pg ∧ t.col = s.col ∧ t.acc = s.acc ∧ (t.pb = none ↔ s.pb = none) ∧
    ∀ i, t.pbByte i = s.pbByte i

/-- The Transport, its history, and the diagnostic channel: no call was made. -/
def SameTransport (s t : State) : Prop :=
  t.script = s.script ∧ t.draws = s.draws ∧ t.tokens = s.tokens ∧ t.trace = s.trace ∧
    t.hung = s.hung ∧ t.diags = s.diags

/-- The panel, every byte of its RAM included. -/
def SamePanel (s t : State) : Prop :=
  t.panel.cfg = s.panel.cfg ∧ t.panel.rx = s.panel.rx ∧ ∀ a, t.ramByte a = s.ramByte a

/-- One Transport call was made: one answer drawn, one entry `c` added to the history, no handle given
out, no diagnostic. -/
def OneCall (s t : State) (c : Call) : Prop :=
  t.script = s.script.tail ∧ t.draws = s.draws + 1 ∧ t.tokens = s.tokens ∧
    t.trace = s.trace ++ [c] ∧ t.diags = s.diags

/-! ### The commands by their number of bytes, with their effects on the panel -/

/-- The `CMD1` rows (30_encoding R57): the instruction, its command, and what it does to the panel's
configuration (41_command_table R84, R88, R91, R92, R97 to R100, R103, R104). -/
def oneByteCommands : List (Instr × Cmd × (PanelCfg → PanelCfg)) :=
  [(.dispoff, .dispoff, fun c => { c with displayOn := false }),
   (.startline, .startline, fun c => { c with startLine := 0 }),
   (.segremap, .segremap, fun c => { c with segRemap := true }),
   (.comscandec, .comscandec, fun c => { c with comScanDec := true }),
   (.resumeram, .resumeram, fun c => { c with ramDisplay := true }),
   (.normaldisp, .normaldisp, fun c => { c with inverted := false }),
   (.scrolloff, .scrolloff, fun c => { c with scrolling := false }),
   (.dispon, .dispon, fun c => { c with displayOn := true }),
   (.invertdisp, .invertdisp, fun c => { c with inverted := true }),
   (.scrollon, .scrollon, fun c => { c with scrolling := true })]

/-- The `CMD2` rows with a parameter byte `p` (41_command_table R85 to R87, R89, R90, R93 to R96). -/
def twoByteCommands (p : Byte) : List (Instr × Cmd × (PanelCfg → PanelCfg)) :=
  [(.clkdiv p, .clkdiv, fun c => { c with clkDiv := p }),
   (.muxratio p, .muxratio, fun c => { c with muxRatio := p }),
   (.dispoffset p, .dispoffset, fun c => { c with dispOffset := p }),
   (.chargepump p, .chargepump, fun c => { c with chargePump := p }),
   (.memmode p, .memmode, fun c => { c with memMode := p }),
   (.compins p, .compins, fun c => { c with comPins := p }),
   (.contrast p, .contrast, fun c => { c with contrast := p }),
   (.precharge p, .precharge, fun c => { c with preCharge := p }),
   (.vcomdesel p, .vcomdesel, fun c => { c with vcomDesel := p })]

/-- The `CMD3` rows at the operands the core sends (41_command_table R101, R102): the window, and the
write position at its start (43_address_window R120). -/
def threeByteCommands : List (Instr × Cmd × Byte × Byte × (PanelCfg → PanelCfg)) :=
  [(.coladdr 0x00 0x7F, .coladdr, 0x00, 0x7F,
      fun c => { c with colStart := 0, colEnd := 127, col := 0 }),
   (.pageaddr 0x00 0x07, .pageaddr, 0x00, 0x07,
      fun c => { c with pageStart := 0, pageEnd := 7, page := 0 })]

/-- The bytes of the families that carry their operand inside the opcode, with what each sets (30_encoding
R63, general knowledge, under the default opcodes): `0b01LLLLLL`, `0b1010000R`, `0b1100D000`,
`0b1010111N`, `0b1010011I`, `0b1010010E`, `0b0010111S`. -/
def embeddedOperands : List (Byte × (PanelCfg → PanelCfg)) :=
  ((List.range 64).map fun l =>
    (BitVec.ofNat 8 (0b01000000 + l), fun c => { c with startLine := BitVec.ofNat 6 l })) ++
  [(0b10100000, fun c => { c with segRemap := false }),
   (0b10100001, fun c => { c with segRemap := true }),
   (0b11000000, fun c => { c with comScanDec := false }),
   (0b11001000, fun c => { c with comScanDec := true }),
   (0b10101110, fun c => { c with displayOn := false }),
   (0b10101111, fun c => { c with displayOn := true }),
   (0b10100110, fun c => { c with inverted := false }),
   (0b10100111, fun c => { c with inverted := true }),
   (0b10100100, fun c => { c with ramDisplay := true }),
   (0b10100101, fun c => { c with ramDisplay := false }),
   (0b00101110, fun c => { c with scrolling := false }),
   (0b00101111, fun c => { c with scrolling := true })]

/-- The panel's configuration after a successful INITIALIZE, over what it was before: exactly the settings
of 10_state R27; the window and the write position are not of them. -/
def initializedCfg (c : PanelCfg) : PanelCfg :=
  { c with
    displayOn := true
    clkDiv := 0x80
    muxRatio := 0x3F
    dispOffset := 0x00
    startLine := 0
    chargePump := 0x14
    memMode := 0x00
    segRemap := true
    comScanDec := true
    comPins := 0x12
    contrast := 0xCF
    preCharge := 0xF1
    vcomDesel := 0x40
    ramDisplay := true
    inverted := false
    scrolling := false }

/-- The core is between two commands of an operation, with its handle `h`, and nothing has gone wrong. -/
def State.sending (s : State) (h : Nat) : Prop :=
  s.busy = true ∧ s.hung = false ∧ s.raised = none ∧ s.opk ≠ .none ∧ s.cmdRest = [] ∧ s.hnd = .opened h

/-- The panel takes a command: its receiver is at a command boundary and the opcodes are distinct. -/
def State.panelReady (s : State) : Prop :=
  s.panel.rx = .boundary ∧ s.par.ops.distinct = true

/-! ### Counts over the history -/

/-- Successful opens and closes (10_state R16). -/
def opensIn : List Call → Nat
  | [] => 0
  | .opened _ _ :: rest => opensIn rest + 1
  | .openFailed _ :: rest => opensIn rest
  | .openUnanswered _ :: rest => opensIn rest
  | .write _ _ _ :: rest => opensIn rest
  | .closed _ _ :: rest => opensIn rest

def closesIn : List Call → Nat
  | [] => 0
  | .opened _ _ :: rest => closesIn rest
  | .openFailed _ :: rest => closesIn rest
  | .openUnanswered _ :: rest => closesIn rest
  | .write _ _ _ :: rest => closesIn rest
  | .closed _ _ :: rest => closesIn rest + 1

/-- Every successful open has been matched by one close, but for the handle still held (10_state R16). -/
def State.handlesPaired (s : State) : Prop :=
  opensIn s.trace = closesIn s.trace + (if s.hnd = .unopened then 0 else 1)

/-- A transaction of the core's closed repertoire (30_encoding R67). -/
def inRepertoire (o : OpTable) (x : Xact) : Prop :=
  x ∈ initStream o ∨ x ∈ windowStream o ∨ x.ctrl = ctrlData

/-- Every register write of the history is of the repertoire. -/
def State.traceInRepertoire (s : State) : Prop :=
  ∀ h x w, Call.write h x w ∈ s.trace → inRepertoire s.par.ops x

end Sys2Proof.Machine
end

