-- ==== Sys2Proof/Certificates/Slice0/Obligations.lean ====
section
/-! DEFINITION. The statements for the provers. Each docstring says which rules of spec/ it formalises. -/

open Sys2Proof Sys2Proof.Machine

/-- Right after reset ST is Uninitialized, HND is UNOPENED, RES is OK, BUSY is false, OPK is none, SEQ
is 0, no Transport call has been made, the build is the default one, and a step with no request of
the host changes nothing. (R31, R166, R9.) That the build at reset is the default one is the model's
choice among the builds R9 allows (log 1, log 25); its opcode bytes are general knowledge (R64, log
2). -/
def Obligations.ResetStateAsSpecified : Prop :=
  State.reset.st = .uninitialized ∧ State.reset.hnd = .unopened ∧ State.reset.res = .ok ∧
  State.reset.busy = false ∧ State.reset.opk = .none ∧ State.reset.seq = 0 ∧
  State.reset.trace = [] ∧ State.reset.hung = false ∧ State.reset.par = Params.default ∧
  step State.reset = .next State.reset

/-- State.reset satisfies the invariant State.Inv. (R31, R15, R18, R20.) -/
def Obligations.ResetMeetsInvariant : Prop :=
  State.reset.Inv

/-- For every state that meets State.Inv, if step answers a next state, that state meets State.Inv:
canonical memories, an idle core that holds nothing of an operation, a handle that is open exactly
in Ready and in an INITIALIZE after its open, a PageBuffer that is absent or what ENCODE makes of
the surface, SEQ at most 1030, and what is left to send is the rest of the write program, at a
command boundary where the opcodes are distinct. (R13, R15, R18, R19, R20, R32, R65, R133.) -/
def Obligations.StepKeepsInvariant : Prop :=
  ∀ s t, s.Inv → step s = .next t → t.Inv

/-- In every state that meets State.Inv: if no Transport call is hanging, step answers a next state (it
neither faults nor refuses); if one is hanging, the step is the fault transportUnanswered, and the
core is busy: it is stuck, not ended. (R133, R176, R181.) That a hang is a state from which the step
is a fault is the model's form of R176 (log 9). -/
def Obligations.ProgressUnlessUnanswered : Prop :=
  ∀ s, s.Inv →
    (s.hung = false → ∃ t, step s = .next t) ∧
    (s.hung = true → s.stuck ∧ step s = .fault .transportUnanswered)

/-- For every state, if step answers a next state, the history of Transport calls is as before or longer
by exactly one call. (R7, R44, R74, R133.) -/
def Obligations.OneTransportCallPerStep : Prop :=
  ∀ s t, step s = .next t → t.trace = s.trace ∨ ∃ c, t.trace = s.trace ++ [c]

/-- In every state that meets State.Inv, if a step adds a register write to the history, then an
operation is in progress, the write goes through the handle held, its transaction is entry SEQ of
the write program, and SEQ is one more after the step if the write was acknowledged and unchanged
otherwise. (R18, R49, R133, R156.) -/
def Obligations.WritesInProgramOrder : Prop :=
  ∀ s t h x w, s.Inv → step s = .next t → t.trace = s.trace ++ [.write h x w] →
    s.opk ≠ .none ∧ s.hnd = .opened h ∧ s.program[s.seq]? = some x ∧
    t.seq = (if w = .acknowledged then s.seq + 1 else s.seq)

/-- For every state with an operation in progress, after a step that leaves it in progress SEQ is
unchanged or one more and OPK is unchanged, or the step was the open step, which starts the
initialization program with SEQ = 0; and for every idle core, after a step that leaves an operation
in progress either its write program has started, with SEQ = 0, or it is an INITIALIZE before its
open, with SEQ unchanged. (R18, R133.) That the checks of an operation are part of the step that
issues it is the model's form (log 19). -/
def Obligations.SequencePointerSteps : Prop :=
  (∀ s t, step s = .next t → s.busy = true → t.busy = true →
    (t.opk = s.opk ∧ (t.seq = s.seq ∨ t.seq = s.seq + 1)) ∨
    (s.opk = .none ∧ t.opk = .init ∧ t.seq = 0)) ∧
  ∀ s t, step s = .next t → s.busy = false → t.busy = true →
    (t.opk ≠ .none ∧ t.seq = 0) ∨ (t.opk = .none ∧ t.hnd = .unopened ∧ t.seq = s.seq)

/-- For every state, if step answers a next state, the parameters (the codes of the commands, of the
host operations and of the results, INIT_FROM_CLOSED, WRITE_TIMEOUT) are as before. (R8, R9, R25.) -/
def Obligations.ParametersNeverChange : Prop :=
  ∀ s t, step s = .next t → t.par = s.par

/-- In every state that meets State.Inv and in whose history the successful opens are the closes plus
the handle held (one if HND is open, none if it is UNOPENED), a step keeps that count; and it holds
at reset. (R16, R142.) -/
def Obligations.HandlesArePaired : Prop :=
  State.reset.handlesPaired ∧
  ∀ s t, s.Inv → s.handlesPaired → step s = .next t → t.handlesPaired

/-- In every state that meets State.Inv and whose recorded register writes are all of the closed
repertoire (entries of the initialization stream, entries of the window stream, or control byte
0x40), a step keeps that; and every transaction of the repertoire has control byte 0x00 or 0x40.
(R56, R67.) -/
def Obligations.TraceStaysInRepertoire : Prop :=
  (∀ s t, s.Inv → s.traceInRepertoire → step s = .next t → t.traceInRepertoire) ∧
  ∀ o x, inRepertoire o x → x.ctrl = 0x00 ∨ x.ctrl = 0x40

/-- For every state whose RES and recorded replies hold no bare TransportOpenError, a step keeps that.
(R147, R150.) -/
def Obligations.OpenErrorNeverBare : Prop :=
  ∀ s t, s.res ≠ .transportOpenError → (∀ r ∈ s.replies, r.result ≠ .transportOpenError) →
    step s = .next t →
    t.res ≠ .transportOpenError ∧ ∀ r ∈ t.replies, r.result ≠ .transportOpenError

/-- For every state: a step that clears BUSY adds exactly one reply, whose result is what RES then
holds; a step that leaves BUSY set, or sets it, adds no reply. (R140, R181.) -/
def Obligations.OneResultPerOperation : Prop :=
  ∀ s t, step s = .next t →
    (s.busy = true → t.busy = false →
      ∃ op, t.replies = s.replies ++ [⟨op, t.res, none⟩]) ∧
    (t.busy = true → t.replies = s.replies)

/-- For every instruction that has a wire encoding, whatever its operand bytes, under every opcode table
whose opcodes are distinct, decoding its transactions followed by any others gives the instruction
and those others; for every instruction encoded as a host request, under host codes that are
distinct, decoding the request gives the instruction. (R57, R58, R59, R60, R65.) -/
def Obligations.DecodeEncodeRoundTrip : Prop :=
  (∀ o i xs rest, o.distinct = true → encode o i = .wire xs →
    decodeWire o (xs ++ rest) = .ok i rest) ∧
  (∀ o i r, o.host.distinct = true → encode o i = .host r → decodeHost o.host r = some i)

/-- Under every opcode table, if a stream of transactions decodes to an instruction and a rest, the
stream is the instruction's encoding followed by the rest: no other stream decodes to it, and no
transaction is dropped. (R57, R66, R67.) -/
def Obligations.EncodeDecodeInverse : Prop :=
  ∀ o ys i rest, decodeWire o ys = .ok i rest → ∃ xs, encode o i = .wire xs ∧ ys = xs ++ rest

/-- With the default codes of R60 and R64: the host code 001 is INITIALIZE and 101 is GET_HEIGHT; 0xAE
is DISPOFF; 0xD5 0x80 is CLKDIV with parameter 0x80; 0x21 0x00 0x7F is COLADDR 0, 127; 0x22 0x00
0x07 is PAGEADDR 0, 7; the pair (0x40, 0x81) is the data byte 0x81. (R58, R60, R64.) The opcode
bytes are the defaults that the spec takes from general knowledge (log 2). -/
def Obligations.TableWordsDecode : Prop :=
  decodeHost HostCodes.default ⟨0b001, zeroSurface⟩ = some .initializeOp ∧
  decodeHost HostCodes.default ⟨0b101, zeroSurface⟩ = some .getHeight ∧
  decodeWire OpTable.default [⟨0x00, 0xAE⟩] = .ok .dispoff [] ∧
  decodeWire OpTable.default [⟨0x00, 0xD5⟩, ⟨0x00, 0x80⟩] = .ok (.clkdiv 0x80) [] ∧
  decodeWire OpTable.default [⟨0x00, 0x21⟩, ⟨0x00, 0x00⟩, ⟨0x00, 0x7F⟩] = .ok (.coladdr 0x00 0x7F) [] ∧
  decodeWire OpTable.default [⟨0x00, 0x22⟩, ⟨0x00, 0x00⟩, ⟨0x00, 0x07⟩] = .ok (.pageaddr 0x00 0x07) [] ∧
  decodeWire OpTable.default [⟨0x40, 0x81⟩] = .ok (.data 0x81) []

/-- With the host codes of R60 the codes 000, 110 and 111 decode to no operation, and under any host
codes a step of an idle core whose next request decodes to no operation takes the request and
changes nothing else: no state, no bus activity, RES unchanged. (R68, R60.) That the ignored request
is taken off the list of requests is the model's (log 22). The codes themselves are the spec's
decision D3. -/
def Obligations.ReservedHostCodesIgnored : Prop :=
  (∀ r : HostRequest, (r.code = 0b000 ∨ r.code = 0b110 ∨ r.code = 0b111) →
    decodeHost HostCodes.default r = none) ∧
  ∀ s r rest, s.busy = false → s.hung = false → s.reqs = r :: rest →
    decodeHost s.par.ops.host r = none → step s = .next { s with reqs := rest }

/-- In an idle core whose next request decodes to an instruction, the step is exec of that instruction
on the state without the request; in an operation between two commands whose program decodes to an
instruction, the step is exec of it on the state whose program is the rest; where it decodes to
none, the entry is sent as it stands. (R52, R60, R133.) What is decoded, and how it is laid out, is
the model's (log 20, log 19). That an entry the decoder names no command for is sent as it stands is
the model's reading of R133 (log 31). -/
def Obligations.StepRunsDecodedInstruction : Prop :=
  (∀ s r rest i, s.busy = false → s.hung = false → s.reqs = r :: rest →
    decodeHost s.par.ops.host r = some i →
    step s = exec i { s with reqs := rest }) ∧
  (∀ s h i rest, s.sending h → decodeWire s.par.ops s.queue = .ok i rest →
    step s = exec i { s with queue := rest }) ∧
  (∀ s h x rest why, s.sending h → s.queue = x :: rest → decodeWire s.par.ops s.queue = .reject why →
    step s = sendByte x { s with queue := rest })

/-- In an operation inside a command, the step sends the next outstanding byte with control byte 0x00
through the open handle: one Transport call; acknowledged, SEQ advances by one and the byte is no
longer outstanding; failed, it is raised, SEQ is unchanged and it is no longer outstanding. In both
cases the controller, the rest of the program, the encoder and the host's side are unchanged. (R45,
R79, R133.) That a command's bytes go one a step is the model's reading of R133 (log 19). -/
def Obligations.StepResumesCommand : Prop :=
  ∀ s h b rest, s.busy = true → s.hung = false → s.raised = none → s.opk ≠ .none →
    s.hnd = .opened h → s.cmdRest = b :: rest →
    (s.answer = .ok → ∃ t, step s = .next t ∧
      OneCall s t (.write h ⟨0x00, b⟩ .acknowledged) ∧ t.seq = s.seq + 1 ∧ t.raised = none ∧
      t.cmdRest = rest ∧ t.queue = s.queue ∧ SameHost s t ∧ SameController s t ∧ SameEncoder s t) ∧
    (∀ a, s.answer = .fail a → ∃ t, step s = .next t ∧
      OneCall s t (.write h ⟨0x00, b⟩ .failed) ∧ t.seq = s.seq ∧ t.raised = some ⟨0x00, b⟩ ∧
      t.cmdRest = rest ∧ t.queue = s.queue ∧ SameHost s t ∧ SameController s t ∧ SameEncoder s t)

/-- In an INITIALIZE before its open: on a handle, HND holds it, OPK is init, SEQ is 0 and the program
is the 26-entry initialization stream; on a failure, ST is Uninitialized, HND stays UNOPENED, the
result is DeviceInitError(TransportOpenError) and the core is idle; on no answer the core stays busy
and hangs. In each case open(0x3C) is the one call made, and no close. (R71, R128, R133, R145,
R176.) That a hang is a state from which the step is a fault is the model's form of R176 (log 9). -/
def Obligations.OpenStep : Prop :=
  ∀ s, s.busy = true → s.hung = false → s.raised = none → s.opk = .none → s.hnd = .unopened →
    (s.answer = .ok → ∃ t, step s = .next t ∧ t.hnd = .opened (s.tokens + 1) ∧ t.opk = .init ∧
      t.seq = 0 ∧ t.queue = initStream s.par.ops ∧ t.busy = true ∧ t.st = s.st ∧ t.res = s.res ∧
      t.trace = s.trace ++ [.opened 0x3C (s.tokens + 1)] ∧ SameEncoder s t ∧ SamePanel s t) ∧
    (∀ a, s.answer = .fail a → ∃ t, step s = .next t ∧ t.st = .uninitialized ∧ t.hnd = .unopened ∧
      t.res = .deviceInitError .transportOpenError ∧ t.busy = false ∧ t.opk = .none ∧
      t.trace = s.trace ++ [.openFailed 0x3C] ∧
      t.replies = s.replies ++ [⟨.initializeOp, .deviceInitError .transportOpenError, none⟩] ∧
      SamePanel s t) ∧
    (∀ a, s.answer = .silent a → ∃ t, step s = .next t ∧ t.stuck ∧ t.hnd = .unopened ∧
      t.trace = s.trace ++ [.openUnanswered 0x3C] ∧ t.replies = s.replies ∧
      step t = .fault .transportUnanswered)

/-- In an UPDATE whose window program has been sent and whose PageBuffer is not yet built, over a
surface of the panel's size, the step builds PB from the surface, makes no Transport call, and the
program is then the 1024 data writes of PB in ascending index. (R116, R124, R129, R133.) -/
def Obligations.EncodeStep : Prop :=
  ∀ s surf, s.busy = true → s.hung = false → s.raised = none → s.opk = .update → s.cmdRest = [] →
    s.queue = [] → s.pb = none → s.surf = some surf → panelSized surf = true →
    ∃ t, step s = .next t ∧ t.pb = some (encodeBuffer surf) ∧
      t.queue = (List.range 1024).map (fun i => ⟨0x40, packByte surf (i / 128) (i % 128)⟩) ∧
      t.seq = s.seq ∧ t.cmdRest = [] ∧ t.raised = none ∧
      SameTransport s t ∧ SameController s t ∧ SameHost s t ∧ SamePanel s t

/-- With the whole program sent, the step of an INITIALIZE sets ST to Ready and reports OK, and that of
an UPDATE (PB built) reports OK and leaves ST; the handle is kept, no call is made, the PageBuffer
is discarded and the core is idle. (R128, R129, R133.) -/
def Obligations.CompleteStep : Prop :=
  ∀ s, s.busy = true → s.hung = false → s.raised = none → s.cmdRest = [] → s.queue = [] →
    (s.opk = .init → ∃ t, step s = .next t ∧ t.st = .ready ∧ t.res = .ok ∧ t.hnd = s.hnd ∧
      t.busy = false ∧ t.cleared ∧ t.replies = s.replies ++ [⟨.initializeOp, .ok, none⟩] ∧
      SameTransport s t ∧ SamePanel s t) ∧
    (s.opk = .update → s.pb ≠ none → ∃ t, step s = .next t ∧ t.st = s.st ∧ t.res = .ok ∧
      t.hnd = s.hnd ∧ t.busy = false ∧ t.cleared ∧ t.replies = s.replies ++ [⟨.update, .ok, none⟩] ∧
      SameTransport s t ∧ SamePanel s t)

/-- After a failed write: the abort step of an INITIALIZE closes the handle, writes UNOPENED back, sets
ST to Uninitialized and reports DeviceInitError(TransportWriteError, at SEQ); that of an UPDATE
reports TransportWriteError at SEQ and leaves ST and HND. In both BUSY is false and OPK none, the
rest of the program is discarded, the panel is left as it is, and control goes to the host with the
result. A failed open leaves ST Uninitialized with DeviceInitError(TransportOpenError) and nothing
else to undo. (R155.) -/
def Obligations.AbortPath : Prop :=
  (∀ s h x, s.busy = true → s.hung = false → s.raised = some x → s.opk = .init → s.hnd = .opened h →
    ∃ t ok, step s = .next t ∧ t.trace = s.trace ++ [.closed h ok] ∧ t.hnd = .unopened ∧
      t.st = .uninitialized ∧ t.res = .deviceInitError (.transportWriteError s.seq x) ∧
      t.replies = s.replies ++ [⟨.initializeOp, t.res, none⟩] ∧
      t.busy = false ∧ t.cleared ∧ SamePanel s t) ∧
  (∀ s x, s.busy = true → s.hung = false → s.raised = some x → s.opk = .update →
    ∃ t, step s = .next t ∧ t.trace = s.trace ∧ t.hnd = s.hnd ∧ t.st = s.st ∧
      t.res = .transportWriteError s.seq x ∧ t.replies = s.replies ++ [⟨.update, t.res, none⟩] ∧
      t.busy = false ∧ t.cleared ∧ SamePanel s t) ∧
  (∀ s a, s.busy = true → s.hung = false → s.raised = none → s.opk = .none → s.hnd = .unopened →
    s.answer = .fail a →
    ∃ t, step s = .next t ∧ t.hnd = .unopened ∧ t.st = .uninitialized ∧
      t.res = .deviceInitError .transportOpenError ∧ t.replies = s.replies ++ [⟨.initializeOp, t.res, none⟩] ∧
      t.busy = false ∧ t.cleared ∧ SamePanel s t)

/-- Where the Transport never answers the write of the next entry of an operation's program, be it an
opcode, a parameter or a data byte: in the base design the core stays busy with SEQ unchanged,
reports nothing and no further step is enabled; in a build with WRITE_TIMEOUT the write is raised as
failed, the core stays busy, and the next step is the abort step, after which it is idle. (R133,
R160, R176.) That a hang is a state and then a fault is the model's form (log 9), and the bound has
no meaning without time (log 10). -/
def Obligations.UnansweredWriteHangs : Prop :=
  ∀ s h x xs a, s.busy = true → s.hung = false → s.raised = none → s.opk ≠ .none →
    s.hnd = .opened h → s.unsent = x :: xs → s.answer = .silent a →
    (s.par.writeTimeout = none → ∃ t, step s = .next t ∧ t.stuck ∧ t.opk = s.opk ∧ t.hnd = s.hnd ∧
      t.seq = s.seq ∧ t.replies = s.replies ∧ t.trace = s.trace ++ [.write h x .unanswered] ∧
      step t = .fault .transportUnanswered) ∧
    (∀ n, s.par.writeTimeout = some n → ∃ t u, step s = .next t ∧ t.hung = false ∧ t.busy = true ∧
      t.opk = s.opk ∧ t.hnd = s.hnd ∧ t.raised = some x ∧ t.seq = s.seq ∧ t.replies = s.replies ∧
      t.trace = s.trace ++ [.write h x .timedOut] ∧
      step t = abortOperation x t ∧ step t = .next u ∧ u.busy = false)

/-- CLASSIFY completes in every state and returns one bit, changing nothing else; the bit is 1 if and
only if the intensity stands for a number greater than 1/2, whether or not that number is in 0 to 1,
or is positive infinity, so 1/2 itself and a not-a-number value are background. (R107, R108, R109.)
The representation of an intensity is the model's (log 3), a not-a-number value the spec's decision
D5 (log 4). -/
def Obligations.ClassifyExceedsHalf : Prop :=
  (∀ v s, exec (.classify v) s = .next { s with ret := .bit (ink v) }) ∧
  ∀ v, ink v = true ↔
    (∃ q, intensityVal v = some q ∧ (1 / 2 : ℚ) < q) ∨ intensityValue v = .infinity false

/-- A code u standing for u/255 is ink exactly when u >= 128; a code u standing for u/256 is ink exactly
when u > 128. (R108.) The two instantiations are the spec's (log 3). -/
def Obligations.EightBitInstantiations : Prop :=
  ∀ u : Byte, (ink (.per255 u) = true ↔ 128 ≤ u.toNat) ∧ (ink (.per256 u) = true ↔ 128 < u.toNat)

/-- For a surface of the panel's size, PACK completes in every state: ACC and the returned byte hold the
packed byte, whose bit n is the class of pixel (x, page*8 + n); nothing else changes. (R110.) That
ACC holds the packed byte is the model's rendering of R21 (log 32). -/
def Obligations.PackSetsRowBits : Prop :=
  ∀ surf (page : BitVec 3) (x : BitVec 7) s, panelSized surf = true →
    ∃ b : Byte, exec (.pack surf page x) s = .next { s with acc := b, ret := .byte b } ∧
      ∀ n, n < 8 → b.getLsbD n = ink (readPixel surf x.toNat (page.toNat * 8 + n))

/-- For a surface of the panel's size, ENCODE completes in every state and builds a PageBuffer in which,
for every pixel (x, y), bit y mod 8 of the byte at index (y div 8)*128 + x is the class of the
pixel. (R36.) -/
def Obligations.EncodePacksEveryPixel : Prop :=
  ∀ surf s, panelSized surf = true → ∃ t, exec (.encode surf) s = .next t ∧
    ∀ x y, x < 128 → y < 64 → ∃ b : Byte, t.pbByte (y / 8 * 128 + x) = some b ∧
      b.getLsbD (y % 8) = ink (readPixel surf x y)

/-- For a surface of the panel's size, ENCODE completes in every state; the controller, the program, the
Transport, the host's side and the panel are unchanged. (R106, R111.) ENCODE leaves the loop
registers at their last values, which is the model's (log 32). -/
def Obligations.EncodeFrame : Prop :=
  ∀ surf s, panelSized surf = true → ∃ t, exec (.encode surf) s = .next t ∧
    t.pb = some (encodeBuffer surf) ∧ SameController s t ∧ SameProgram s t ∧ SameTransport s t ∧
    SameHost s t ∧ SamePanel s t

/-- For every surface of the panel's size the PageBuffer ENCODE builds holds a byte at every index from
0 to 1023, 1024 entries in all, and none above. (R112.) -/
def Obligations.EncodeAlways1024Bytes : Prop :=
  ∀ surf s, panelSized surf = true → ∃ t m, exec (.encode surf) s = .next t ∧ t.pb = some m ∧
    m.length = 1024 ∧ (∀ i, i < 1024 → ∃ b, t.pbByte i = some b) ∧
    ∀ i, 1024 ≤ i → t.pbByte i = none

/-- If every pixel of a surface of the panel's size is background, every byte of the PageBuffer is 0x00;
if every pixel is ink, every byte is 0xFF. (R113.) -/
def Obligations.EncodeUniformSurfaces : Prop :=
  ∀ surf s, panelSized surf = true → ∃ t, exec (.encode surf) s = .next t ∧
    ((∀ x y, x < 128 → y < 64 → ink (readPixel surf x y) = false) →
      ∀ i, i < 1024 → t.pbByte i = some 0x00) ∧
    ((∀ x y, x < 128 → y < 64 → ink (readPixel surf x y) = true) →
      ∀ i, i < 1024 → t.pbByte i = some 0xFF)

/-- If the only ink pixel of a surface of the panel's size is (x, y), the byte at index (y div 8)*128 +
x is 1 << (y mod 8) and every other byte is 0x00; in particular (0,0) gives PB[0] = 0x01, (0,7)
gives PB[0] = 0x80, (1,0) gives PB[1] = 0x01. (R114, R111.) The general sentence is one that the
spec marks as its own inference, derived from R111. -/
def Obligations.EncodeSinglePixel : Prop :=
  ∀ surf s x y, panelSized surf = true → x < 128 → y < 64 →
    (∀ x' y', x' < 128 → y' < 64 → (ink (readPixel surf x' y') = true ↔ x' = x ∧ y' = y)) →
    ∃ t, exec (.encode surf) s = .next t ∧
      (∀ i, i < 1024 → t.pbByte i =
        some (if i = y / 8 * 128 + x then (1 : Byte) <<< (y % 8) else 0x00)) ∧
      (x = 0 → y = 0 → t.pbByte 0 = some 0x01) ∧
      (x = 0 → y = 7 → t.pbByte 0 = some 0x80) ∧
      (x = 1 → y = 0 → t.pbByte 1 = some 0x01)

/-- Two surfaces of the panel's size whose 8192 pixels have the same classes give equal PageBuffers,
whatever the two states. (R106.) -/
def Obligations.EncodeDependsOnPixelsOnly : Prop :=
  ∀ surf surf' s s', panelSized surf = true → panelSized surf' = true →
    (∀ x y, x < 128 → y < 64 → ink (readPixel surf x y) = ink (readPixel surf' x y)) →
    ∃ t t', exec (.encode surf) s = .next t ∧ exec (.encode surf') s' = .next t' ∧ t.pb = t'.pb

/-- For a 7-bit x and a 6-bit y the index is the 10-bit number made of y[5:3] and x, the bit number is
y[2:0]; every index below 1024 and bit below 8 is the place of exactly one pixel, and in the
PageBuffer ENCODE builds that bit is the class of that pixel, so no bit is undefined; and no index
exceeds 1023. (R37, R35, R36.) The rule is one that the spec marks as its own inference, derived
from R35 and R36. -/
def Obligations.PixelMapIsBijection : Prop :=
  (∀ (x : BitVec 7) (y : BitVec 6),
    pixelIndex x.toNat y.toNat = (y.extractLsb' 3 3 ++ x).toNat ∧
    pixelBit y.toNat = (y.extractLsb' 0 3).toNat ∧ pixelIndex x.toNat y.toNat ≤ 1023) ∧
  ∀ i n, i < 1024 → n < 8 →
    (∃! p : BitVec 7 × BitVec 6, pixelIndex p.1.toNat p.2.toNat = i ∧ pixelBit p.2.toNat = n) ∧
    ∀ surf s, panelSized surf = true → ∃ t b, exec (.encode surf) s = .next t ∧
      t.pbByte i = some b ∧ b.getLsbD n = ink (readPixel surf (i % 128) (i / 128 * 8 + n))

/-- These stops are the model's choices for what the spec says the core never does (log 18, 23, 24):
T_WRITE with HND = UNOPENED is the fault noOpenHandle, SEND_FRAME where no PageBuffer exists is the
fault noPageBuffer, and PACK, ENCODE and UPDATE_PROGRAM of a surface that is not 128 by 64 are
refused as surfaceNotPanelSized. (R20, R34, R72, R111.) -/
def Obligations.UnreachableFormsStopByName : Prop :=
  (∀ ctrl byte s, s.hnd = .unopened → exec (.tWrite ctrl byte) s = .fault .noOpenHandle) ∧
  (∀ s, s.pb = none → exec .sendFrame s = .fault .noPageBuffer) ∧
  ∀ surf page x s, panelSized surf = false →
    exec (.pack surf page x) s = .refused .surfaceNotPanelSized ∧
    exec (.encode surf) s = .refused .surfaceNotPanelSized ∧
    exec (.updateProgram surf) s = .refused .surfaceNotPanelSized

/-- T_OPEN completes in every state: on success it returns a fresh handle; on failure it returns
TransportOpenError; with no answer it hangs. It makes one call, no register write, and changes no
register of the core (its caller stores the handle). (R71, R76.) -/
def Obligations.TOpenAnswers : Prop :=
  ∀ addr s,
    (s.answer = .ok → ∃ t, exec (.tOpen addr) s = .next t ∧ t.ret = .handle (s.tokens + 1) ∧
      t.trace = s.trace ++ [.opened addr (s.tokens + 1)] ∧ t.tokens = s.tokens + 1 ∧ t.hung = s.hung ∧
      SameHost s t ∧ SameController s t ∧ SameProgram s t ∧ SameEncoder s t ∧ SamePanel s t) ∧
    (∀ a, s.answer = .fail a → ∃ t, exec (.tOpen addr) s = .next t ∧ t.ret = .openError ∧
      OneCall s t (.openFailed addr) ∧ t.hung = s.hung ∧
      SameHost s t ∧ SameController s t ∧ SameProgram s t ∧ SameEncoder s t ∧ SamePanel s t) ∧
    (∀ a, s.answer = .silent a → ∃ t, exec (.tOpen addr) s = .next t ∧ t.hung = true ∧
      OneCall s t (.openUnanswered addr) ∧
      SameHost s t ∧ SameController s t ∧ SameProgram s t ∧ SameEncoder s t ∧ SamePanel s t)

/-- With an open handle T_WRITE completes: acknowledged, it returns ok and the panel receives the
transaction; failed, or timed out in a build with WRITE_TIMEOUT, it returns TransportWriteError, and
the panel is as the draw of 20_memory R54 makes it; with no answer and no timeout it hangs. It makes
one call and changes no register of the core. (R72, R54, R160.) The panel is the reference receiver
(log 12). That a write which is never answered draws its effect on the panel as a failed one does is
the model's (log 11); the timeout has no duration (log 10). -/
def Obligations.TWriteAnswers : Prop :=
  ∀ ctrl byte s h, s.hnd = .opened h →
    (s.answer = .ok → ∃ t, exec (.tWrite ctrl byte) s = .next t ∧ t.ret = .ok ∧
      OneCall s t (.write h ⟨ctrl, byte⟩ .acknowledged) ∧ t.hung = s.hung ∧
      t.panel = s.panel.receive s.par.ops s.draws ⟨ctrl, byte⟩ ∧
      SameHost s t ∧ SameController s t ∧ SameProgram s t ∧ SameEncoder s t) ∧
    (∀ a, s.answer = .fail a → ∃ t, exec (.tWrite ctrl byte) s = .next t ∧ t.ret = .writeError ∧
      OneCall s t (.write h ⟨ctrl, byte⟩ .failed) ∧ t.hung = s.hung ∧
      t.panel = s.panel.unsure s.par.ops s.draws a ⟨ctrl, byte⟩ ∧
      SameHost s t ∧ SameController s t ∧ SameProgram s t ∧ SameEncoder s t) ∧
    (∀ a n, s.answer = .silent a → s.par.writeTimeout = some n →
      ∃ t, exec (.tWrite ctrl byte) s = .next t ∧ t.ret = .writeError ∧
      OneCall s t (.write h ⟨ctrl, byte⟩ .timedOut) ∧ t.hung = s.hung ∧
      t.panel = s.panel.unsure s.par.ops s.draws a ⟨ctrl, byte⟩ ∧
      SameHost s t ∧ SameController s t ∧ SameProgram s t ∧ SameEncoder s t) ∧
    (∀ a, s.answer = .silent a → s.par.writeTimeout = none →
      ∃ t, exec (.tWrite ctrl byte) s = .next t ∧ t.hung = true ∧
      OneCall s t (.write h ⟨ctrl, byte⟩ .unanswered) ∧
      t.panel = s.panel.unsure s.par.ops s.draws a ⟨ctrl, byte⟩ ∧
      SameHost s t ∧ SameController s t ∧ SameProgram s t ∧ SameEncoder s t)

/-- T_CLOSE completes in every state with return ok. On the sentinel it is a no-op and the Transport is
not called; on an open handle it makes one call, which draws ok or fail, and a failure goes to the
diagnostic channel only. It makes no register write, writes no register of the core, and the panel
keeps what it holds. (R73.) A close that the script leaves unanswered counts as failed, the spec's
decision D17 (log 8). -/
def Obligations.TCloseNeverFails : Prop :=
  ∀ s,
    (s.hnd = .unopened → exec .tClose s = .next { s with ret := .ok }) ∧
    (∀ h, s.hnd = .opened h → ∃ t, exec .tClose s = .next t ∧ t.ret = .ok ∧
      (s.answer = .ok → t.trace = s.trace ++ [.closed h true] ∧ t.diags = s.diags) ∧
      (∀ a, s.answer = .fail a → t.trace = s.trace ++ [.closed h false] ∧
        t.diags = s.diags ++ [.closeFailed h]) ∧
      (∃ ok, t.trace = s.trace ++ [.closed h ok]) ∧
      t.hung = s.hung ∧ t.tokens = s.tokens ∧ t.script = s.script.tail ∧ t.draws = s.draws + 1 ∧
      SameHost s t ∧ SameController s t ∧ SameProgram s t ∧ SameEncoder s t ∧ SamePanel s t)

/-- Under every opcode table the initialization program is 26 writes with control byte 0x00: the 17
opcodes in the documented order, each followed by its parameter; under the default table it is AE D5
80 A8 3F D3 00 40 8D 14 20 00 A1 C8 DA 12 81 CF D9 F1 DB 40 A4 A6 2E AF. (R81.) -/
def Obligations.InitStreamIsTheTable : Prop :=
  (∀ o : OpTable, initStream o =
    ([o.dispoff, o.clkdiv, 0x80, o.muxratio, 0x3F, o.dispoffset, 0x00, o.startline, o.chargepump, 0x14,
      o.memmode, 0x00, o.segremap, o.comscandec, o.compins, 0x12, o.contrast, 0xCF, o.precharge, 0xF1,
      o.vcomdesel, 0x40, o.resumeram, o.normaldisp, o.scrolloff, o.dispon] : List Byte).map
      (fun b => ⟨0x00, b⟩)) ∧
  (∀ o, (initStream o).length = 26) ∧
  initStream OpTable.default =
    ([0xAE, 0xD5, 0x80, 0xA8, 0x3F, 0xD3, 0x00, 0x40, 0x8D, 0x14, 0x20, 0x00, 0xA1, 0xC8, 0xDA, 0x12,
      0x81, 0xCF, 0xD9, 0xF1, 0xDB, 0x40, 0xA4, 0xA6, 0x2E, 0xAF] : List Byte).map (fun b => ⟨0x00, b⟩)

/-- With an open handle, a panel at a command boundary, distinct opcodes and an acknowledging Transport,
each of the ten CMD1 instructions completes: one write (0x00, OP), SEQ one more, the panel's
configuration changed by exactly the command's effect; the controller, the rest of the program, the
encoder with every byte of PB, the host's side, and every byte of the panel RAM are unchanged. (R57,
R79, R84, R88, R91, R92, R97, R98, R99, R100, R103, R104.) The panel is the reference receiver (log
12). -/
def Obligations.OneByteCommandsComplete : Prop :=
  ∀ i c f s h, (i, c, f) ∈ oneByteCommands → s.hnd = .opened h → s.panelReady → s.answer = .ok →
    ∃ t, exec i s = .next t ∧ OneCall s t (.write h ⟨0x00, s.par.ops.op c⟩ .acknowledged) ∧
      t.seq = s.seq + 1 ∧ t.ret = .ok ∧ t.raised = s.raised ∧ t.hung = s.hung ∧ t.queue = s.queue ∧
      t.cmdRest = s.cmdRest ∧ t.panel.cfg = f s.panel.cfg ∧ t.panel.rx = .boundary ∧
      (∀ a, t.ramByte a = s.ramByte a) ∧ SameHost s t ∧ SameController s t ∧ SameEncoder s t

/-- In an operation with an open handle, a panel at a command boundary, distinct opcodes and two
acknowledging answers, each of the nine CMD2 instructions completes, whatever its parameter byte:
its own step sends (0x00, OP), leaves the parameter outstanding and the panel waiting for it with
its configuration unchanged; the next step sends (0x00, parameter), and the panel's configuration is
changed by exactly the command's effect. SEQ advances by one each; the controller, the rest of the
program, the encoder with every byte of PB, the host's side, and every byte of the panel RAM are
unchanged. (R57, R79, R85, R86, R87, R89, R90, R93, R94, R95, R96, R133.) The panel is the reference
receiver (log 12). -/
def Obligations.TwoByteCommandsComplete : Prop :=
  ∀ p i c f s h as, (i, c, f) ∈ twoByteCommands p → s.sending h → s.panelReady →
    s.script = .ok :: .ok :: as →
    ∃ t u, exec i s = .next t ∧ step t = .next u ∧
      OneCall s t (.write h ⟨0x00, s.par.ops.op c⟩ .acknowledged) ∧ t.seq = s.seq + 1 ∧
      t.cmdRest = [p] ∧ t.queue = s.queue ∧ t.raised = none ∧ t.hung = false ∧
      t.panel.cfg = s.panel.cfg ∧ t.panel.rx = .param c [] ∧ (∀ a, t.ramByte a = s.ramByte a) ∧
      SameHost s t ∧ SameController s t ∧ SameEncoder s t ∧
      OneCall t u (.write h ⟨0x00, p⟩ .acknowledged) ∧ u.seq = s.seq + 2 ∧ u.cmdRest = [] ∧
      u.queue = s.queue ∧ u.raised = none ∧ u.hung = false ∧ u.panel.cfg = f s.panel.cfg ∧
      u.panel.rx = .boundary ∧ (∀ a, u.ramByte a = s.ramByte a) ∧
      SameHost s u ∧ SameController s u ∧ SameEncoder s u

/-- In an operation with an open handle, a panel at a command boundary, distinct opcodes and three
acknowledging answers, COLADDR 0, 127 and PAGEADDR 0, 7 complete: their own step sends (0x00, OP)
and leaves two bytes outstanding; the next two steps send them; the panel then has the window's part
set and the write position's part at its start. Everything else is unchanged, every byte of the
panel RAM and of PB included. (R57, R79, R101, R102, R120, R133.) The panel is the reference
receiver (log 12). -/
def Obligations.ThreeByteCommandsComplete : Prop :=
  ∀ i c a b f s h as, (i, c, a, b, f) ∈ threeByteCommands → s.sending h → s.panelReady →
    s.script = .ok :: .ok :: .ok :: as →
    ∃ t u v, exec i s = .next t ∧ step t = .next u ∧ step u = .next v ∧
      OneCall s t (.write h ⟨0x00, s.par.ops.op c⟩ .acknowledged) ∧ t.cmdRest = [a, b] ∧
      OneCall t u (.write h ⟨0x00, a⟩ .acknowledged) ∧ u.cmdRest = [b] ∧
      OneCall u v (.write h ⟨0x00, b⟩ .acknowledged) ∧ v.cmdRest = [] ∧
      t.seq = s.seq + 1 ∧ u.seq = s.seq + 2 ∧ v.seq = s.seq + 3 ∧
      v.queue = s.queue ∧ v.raised = none ∧ v.hung = false ∧
      t.panel.cfg = s.panel.cfg ∧ u.panel.cfg = s.panel.cfg ∧ v.panel.cfg = f s.panel.cfg ∧
      v.panel.rx = .boundary ∧ (∀ k, v.ramByte k = s.ramByte k) ∧
      SameHost s v ∧ SameController s v ∧ SameEncoder s v

/-- In an operation with an open handle and enough acknowledging answers, SEND_CMD completes, whatever
its opcode and parameters: it sends the opcode and leaves the parameters outstanding, and as many
further steps as there are parameters send them in order, each as one write with control byte 0x00;
SEQ advances by the number of bytes. The controller, the rest of the program, the encoder and the
host's side are unchanged. With the default opcodes and a panel at a command boundary, an
acknowledged byte of one of the seven families that carry their operand inside the opcode sets
exactly that operand (start line L, segment remap R, COM scan direction D, display N, inverted I,
all on E, scroll S), and every byte of the panel RAM is unchanged. (R57, R59, R79, R63.) That a
command's bytes go one a step is the model's (log 19); the operands inside the opcode are general
knowledge (R63, log 12), and so are the default opcodes (log 2). -/
def Obligations.SendCmdSendsEveryByte : Prop :=
  (∀ op ps s h as, s.sending h → s.script = List.replicate (ps.length + 1) .ok ++ as →
    ∃ t u, exec (.sendCmd op ps) s = .next t ∧ t.cmdRest = ps ∧
      OneCall s t (.write h ⟨0x00, op⟩ .acknowledged) ∧ t.seq = s.seq + 1 ∧
      Sys2Proof.core.run ps.length t = .next u ∧
      u.trace = s.trace ++ (op :: ps).map (fun b => .write h ⟨0x00, b⟩ .acknowledged) ∧
      u.seq = s.seq + (ps.length + 1) ∧ u.cmdRest = [] ∧ u.script = as ∧
      u.queue = s.queue ∧ u.raised = none ∧ u.hung = false ∧
      SameHost s u ∧ SameController s u ∧ SameEncoder s u) ∧
  ∀ s h f b, (b, f) ∈ embeddedOperands → s.hnd = .opened h → s.panel.rx = .boundary →
    s.par.ops = OpTable.default → s.answer = .ok →
    ∃ t, exec (.sendCmd b []) s = .next t ∧ t.ret = .ok ∧ t.panel = { s.panel with cfg := f s.panel.cfg }

/-- For SEND_CMD and each of the 21 commands, with an open handle: if the write of the opcode fails, the
instruction answers a state in which exactly that write is raised, SEQ is unchanged and one failed
write is in the history; the controller, the encoder and the host's side are unchanged; and, at a
command boundary, every byte of the panel RAM is unchanged if the opcode byte is one of the table.
(R45, R79, R146, R175.) The panel is the reference receiver (log 12), and its loss after a cut
command is marked as general knowledge in the spec (log 13). -/
def Obligations.CommandWriteFailureIsRaised : Prop :=
  ∀ i op ps s h a, (i = .sendCmd op ps ∨ encode s.par.ops i = .wire (commandXacts op ps)) →
    s.hnd = .opened h → s.answer = .fail a →
    ∃ t, exec i s = .next t ∧ t.raised = some ⟨0x00, op⟩ ∧ t.seq = s.seq ∧
      OneCall s t (.write h ⟨0x00, op⟩ .failed) ∧ t.hung = s.hung ∧
      (s.panel.rx = .boundary → s.par.ops.find op ≠ none → ∀ k, t.ramByte k = s.ramByte k) ∧
      SameHost s t ∧ SameController s t ∧ SameEncoder s t

/-- A write that is not acknowledged at a parameter position leaves the panel's receiver lost and its
RAM unchanged; at the opcode of a multi-byte command it does so if the write was applied; if it was
not, the panel is as it was, but for the window and the write position where the opcode is that of
COLADDR or PAGEADDR; at the opcode of a one-byte command the receiver stays at a command boundary. A
lost receiver stays lost whatever it receives, so no later operation restores it. (R54, R126, R175.)
The panel is the reference receiver (log 12), and its loss after a cut command is marked as general
knowledge in the spec (log 13). -/
def Obligations.CutCommandLosesPanel : Prop :=
  (∀ (p : Panel) o n a x k got, p.rx = .param k got →
    (p.unsure o n a x).rx = .lost ∧ (p.unsure o n a x).ram = p.ram) ∧
  (∀ (p : Panel) o n x k, p.rx = .boundary → x.ctrl = 0x00 → o.named x.byte = [k] →
    (k ≠ .coladdr → k ≠ .pageaddr → p.unsure o n false x = p) ∧
    (k = .coladdr ∨ k = .pageaddr → ∃ c : PanelCfg, p.unsure o n false x =
      { p with cfg := { p.cfg with
          colStart := c.colStart, colEnd := c.colEnd, pageStart := c.pageStart, pageEnd := c.pageEnd,
          col := c.col, page := c.page } }) ∧
    (0 < k.arity → (p.unsure o n true x).rx = .lost ∧ (p.unsure o n true x).ram = p.ram) ∧
    (k.arity = 0 → (p.unsure o n true x).rx = .boundary ∧ (p.unsure o n true x).ram = p.ram)) ∧
  ∀ (p : Panel) o n a x, p.rx = .lost → (p.receive o n x).rx = .lost ∧ (p.unsure o n a x).rx = .lost

/-- With an open handle, a panel at a command boundary in horizontal mode and an acknowledging
Transport, DATA completes: one write (0x40, d), SEQ one more, the panel RAM byte at the write
position is d and every other byte is unchanged; the write position moves to the next column, or at
the window's last column to the first column of the next page (of the first page after the last);
the 10-bit counter made of PG and COL is one more. The rest of the configuration, the controller,
the program, ACC, every byte of PB and the host's side are unchanged. (R58, R72, R121, R122, R125.)
The panel is the reference receiver, whose stepping is marked as general knowledge in the spec (log
12). That the counter is back at 0 after byte 1023, where R121 counts no further, is the model's
(log 32). That a write position outside the window steps by the same rule is the model's choice (log
40). -/
def Obligations.DataWriteStoresAtPosition : Prop :=
  ∀ d s h, s.hnd = .opened h → s.panel.rx = .boundary → s.panel.cfg.memMode = 0x00 → s.answer = .ok →
    ∃ t, exec (.data d) s = .next t ∧ OneCall s t (.write h ⟨0x40, d⟩ .acknowledged) ∧
      t.seq = s.seq + 1 ∧ t.ret = .ok ∧ t.raised = s.raised ∧ t.hung = s.hung ∧ t.queue = s.queue ∧
      t.cmdRest = s.cmdRest ∧ t.ramByte s.panel.addr = some d ∧
      (∀ a, a ≠ s.panel.addr → t.ramByte a = s.ramByte a) ∧ t.panel.rx = .boundary ∧
      (s.panel.cfg.col ≠ s.panel.cfg.colEnd →
        t.panel.cfg = { s.panel.cfg with col := s.panel.cfg.col + 1 }) ∧
      (s.panel.cfg.col = s.panel.cfg.colEnd → s.panel.cfg.page ≠ s.panel.cfg.pageEnd →
        t.panel.cfg = { s.panel.cfg with
          col := s.panel.cfg.colStart, page := s.panel.cfg.page + 1 }) ∧
      (s.panel.cfg.col = s.panel.cfg.colEnd → s.panel.cfg.page = s.panel.cfg.pageEnd →
        t.panel.cfg = { s.panel.cfg with
          col := s.panel.cfg.colStart, page := s.panel.cfg.pageStart }) ∧
      t.pg ++ t.col = (s.pg ++ s.col) + 1#10 ∧ t.acc = s.acc ∧ t.pb = s.pb ∧
      SameHost s t ∧ SameController s t

/-- With an open handle and a panel at a command boundary in horizontal mode, a failed DATA is raised
with SEQ and the page-stride counters unchanged; the panel RAM byte at the write position holds its
old value, or the new one if the write was applied, and every other byte is unchanged. (R54, R122,
R126.) The panel is the reference receiver (log 12); the draw is the spec's decision D20 (log 11). -/
def Obligations.DataWriteFailure : Prop :=
  ∀ d s h a, s.hnd = .opened h → s.panel.rx = .boundary → s.panel.cfg.memMode = 0x00 →
    s.answer = .fail a →
    ∃ t, exec (.data d) s = .next t ∧ OneCall s t (.write h ⟨0x40, d⟩ .failed) ∧
      t.raised = some ⟨0x40, d⟩ ∧ t.seq = s.seq ∧ t.pg = s.pg ∧ t.col = s.col ∧ t.pb = s.pb ∧
      t.ramByte s.panel.addr = (if a then some d else s.ramByte s.panel.addr) ∧
      (∀ k, k ≠ s.panel.addr → t.ramByte k = s.ramByte k) ∧ SameHost s t ∧ SameController s t

/-- INIT_SEQ and SET_WINDOW complete in every state and put the 26 transactions of the initialization
stream, respectively the six of the window (COLADDR 0, 127 then PAGEADDR 0, 7, all with control byte
0x00), in front of the program, changing nothing else. SEND_FRAME completes where a PageBuffer
exists and puts one transaction (0x40, b) for each of its bytes there, from page 0 and column 0.
UPDATE_PROGRAM completes for a surface of the panel's size: the window, then the 1024 data writes of
ENCODE(surf), 1030 in all. (R70, R80, R118, R122, R123.) That an expansion goes in front of what is
left of the program is the model's form (log 19). That UPDATE_PROGRAM leaves the PageBuffer of its
surface is the model's reading of R123 (log 37). -/
def Obligations.PseudoInstructionsExpand : Prop :=
  (∀ s, exec .initSeq s = .next { s with queue := initStream s.par.ops ++ s.queue }) ∧
  (∀ s, exec .setWindow s = .next { s with
      queue := ([s.par.ops.coladdr, 0x00, 0x7F, s.par.ops.pageaddr, 0x00, 0x07] : List Byte).map
        (fun b => (⟨0x00, b⟩ : Xact)) ++ s.queue }) ∧
  (∀ s m, s.pb = some m → exec .sendFrame s = .next { s with
      pg := 0, col := 0, queue := m.map (fun c => (⟨0x40, c.2⟩ : Xact)) ++ s.queue }) ∧
  ∀ s surf, panelSized surf = true → ∃ t, exec (.updateProgram surf) s = .next t ∧
    t.queue =
      ([s.par.ops.coladdr, 0x00, 0x7F, s.par.ops.pageaddr, 0x00, 0x07] : List Byte).map
        (fun b => ⟨0x00, b⟩) ++
      (List.range 1024).map (fun i => ⟨0x40, packByte surf (i / 128) (i % 128)⟩) ++ s.queue ∧
    t.queue.length = 1030 + s.queue.length ∧ t.seq = s.seq ∧ t.cmdRest = s.cmdRest ∧
    t.raised = s.raised ∧ t.pb = some (encodeBuffer surf) ∧
    SameTransport s t ∧ SameController s t ∧ SameHost s t ∧ SamePanel s t

/-- Issued to an idle core: in Closed under the policy reject it ends at once with InvalidStateError,
BUSY false, ST and HND unchanged and no Transport call; otherwise it is accepted: with HND =
UNOPENED BUSY is set, OPK is none and the open step is next; with an open handle BUSY is set, the
handle is kept, no open is made, OPK is init, SEQ is 0 and the program is the initialization stream.
It makes no Transport call, and RES, the panel and the encoder's registers but for PB are unchanged
when it is accepted. (R128, R133, R135, R136.) That a PageBuffer of an earlier UPDATE is gone is the
model's form of R32 (log 18). -/
def Obligations.InitializeIsAccepted : Prop :=
  ∀ s, s.busy = false →
    (s.st = .closed → s.par.initFromClosed = .reject → ∃ t, exec .initializeOp s = .next t ∧
      t.res = .invalidStateError .initializeOp .closed ∧
      t.replies = s.replies ++ [⟨.initializeOp, t.res, none⟩] ∧ t.busy = false ∧ t.opk = .none ∧
      t.st = s.st ∧ t.hnd = s.hnd ∧ t.seq = s.seq ∧ SameTransport s t ∧ SamePanel s t ∧ t.par = s.par ∧
      t.reqs = s.reqs ∧ t.hung = s.hung ∧ t.pb = none ∧ t.pg = s.pg ∧ t.col = s.col ∧ t.acc = s.acc) ∧
    ((s.st ≠ .closed ∨ s.par.initFromClosed = .reopen) → ∃ t, exec .initializeOp s = .next t ∧
      t.busy = true ∧ t.raised = none ∧ t.cmdRest = [] ∧ t.pb = none ∧
      (s.hnd = .unopened → t.opk = .none ∧ t.queue = []) ∧
      (s.hnd ≠ .unopened → t.opk = .init ∧ t.seq = 0 ∧ t.queue = initStream s.par.ops) ∧
      t.st = s.st ∧ t.hnd = s.hnd ∧ t.res = s.res ∧ SameHost s t ∧ SameTransport s t ∧
      SamePanel s t ∧ t.pg = s.pg ∧ t.col = s.col ∧ t.acc = s.acc)

/-- Issued to an idle core: outside Ready it ends at once with InvalidStateError, whatever the surface;
in Ready with a surface that is not 128 by 64 it ends at once with InvalidSurfaceError; in Ready
with a surface of 128 by 64 it is accepted: BUSY is set, OPK is update, SEQ is 0, the surface is
held by value and the program is the window stream. In no case does it make a Transport call or
change ST, HND, the panel or the encoder's registers; a PageBuffer of an earlier UPDATE is gone.
(R129, R137, R148, R149, R154.) That a PageBuffer of an earlier UPDATE is gone is the model's form
of R32 (log 18). -/
def Obligations.UpdateIsChecked : Prop :=
  ∀ s surf, s.busy = false → ∃ t, exec (.update surf) s = .next t ∧
    t.st = s.st ∧ t.hnd = s.hnd ∧ SameTransport s t ∧ SamePanel s t ∧ t.par = s.par ∧
    t.reqs = s.reqs ∧ t.hung = s.hung ∧ t.pb = none ∧ t.pg = s.pg ∧ t.col = s.col ∧ t.acc = s.acc ∧
    (s.st ≠ .ready → t.res = .invalidStateError .update s.st ∧ t.busy = false ∧ t.opk = .none ∧
      t.seq = s.seq ∧ t.replies = s.replies ++ [⟨.update, t.res, none⟩]) ∧
    (s.st = .ready → ¬ (surf.width = 128 ∧ surf.height = 64) → t.res = .invalidSurfaceError ∧
      t.busy = false ∧ t.opk = .none ∧ t.seq = s.seq ∧ t.replies = s.replies ++ [⟨.update, t.res, none⟩]) ∧
    (s.st = .ready → surf.width = 128 → surf.height = 64 → t.busy = true ∧ t.opk = .update ∧
      t.seq = 0 ∧ t.surf = some surf ∧ t.queue = windowStream s.par.ops ∧ t.cmdRest = [] ∧
      t.raised = none ∧ t.res = s.res ∧ t.replies = s.replies)

/-- Issued to an idle core, DISPOSE completes: ST is Closed, HND is UNOPENED and RES is OK; with an open
handle it makes one close call, with the sentinel no Transport call at all; it makes no register
write and the panel is unchanged; a second DISPOSE makes no call and ends in OK again. (R16, R130,
R139, R152.) That a close always answers is the spec's decision D17; one that the script leaves
unanswered counts as failed (log 8). -/
def Obligations.DisposeClosesOnce : Prop :=
  ∀ s, s.busy = false → ∃ t, exec .dispose s = .next t ∧ t.st = .closed ∧ t.hnd = .unopened ∧
    t.res = .ok ∧ t.busy = false ∧ t.replies = s.replies ++ [⟨.dispose, .ok, none⟩] ∧
    (s.hnd = .unopened → t.trace = s.trace ∧ t.script = s.script ∧ t.diags = s.diags) ∧
    (∀ h, s.hnd = .opened h → ∃ ok, t.trace = s.trace ++ [.closed h ok]) ∧
    t.par = s.par ∧ t.reqs = s.reqs ∧ t.seq = s.seq ∧ t.pg = s.pg ∧ t.col = s.col ∧ t.acc = s.acc ∧
    t.hung = s.hung ∧ t.tokens = s.tokens ∧ t.pb = none ∧ SamePanel s t ∧
    ∃ u, exec .dispose t = .next u ∧ u.trace = t.trace ∧ u.res = .ok ∧ u.st = .closed

/-- With the host codes of R60 the code 100 is GET_WIDTH. GET_WIDTH completes in every state, reports
128, and changes no register, no memory and no history but the list of replies and the value
returned; it makes no Transport call. (R131.) That RES is not written is the spec's decision D2. -/
def Obligations.WidthIsAlways128 : Prop :=
  decodeHost HostCodes.default ⟨0b100, zeroSurface⟩ = some .getWidth ∧
  ∀ s, exec .getWidth s =
    .next { s with ret := .dim 128, replies := s.replies ++ [⟨.getWidth, .ok, some 128⟩] }

/-- With the host codes of R60 the code 101 is GET_HEIGHT. GET_HEIGHT completes in every state, reports
64, and changes no register, no memory and no history but the list of replies and the value
returned; it makes no Transport call. (R132.) -/
def Obligations.HeightIsAlways64 : Prop :=
  decodeHost HostCodes.default ⟨0b101, zeroSurface⟩ = some .getHeight ∧
  ∀ s, exec .getHeight s =
    .next { s with ret := .dim 64, replies := s.replies ++ [⟨.getHeight, .ok, some 64⟩] }

/-- While BUSY, INITIALIZE, UPDATE and DISPOSE are refused by the name hostWhileBusy: the spec gives two
overlapping operations no defined behaviour and has a model refuse the scenario; and a step of a
busy core does not take a request of the host. (R19, R51, R172.) The spec's decision D25 (log 21). -/
def Obligations.OverlappingOperationRefused : Prop :=
  (∀ s surf, s.busy = true → exec .initializeOp s = .refused .hostWhileBusy ∧
    exec (.update surf) s = .refused .hostWhileBusy ∧ exec .dispose s = .refused .hostWhileBusy) ∧
  ∀ s t, s.busy = true → step s = .next t → t.reqs = s.reqs

/-- After the reset event, from any state, the core's registers are those of reset, no call and no reply
is recorded; the panel's RAM is unchanged, and so are its configuration and receiver unless the
reset cut a multi-byte command, which leaves it lost. (R165, R167, R168.) The reset event is no step
(log 27). -/
def Obligations.ResetEventKeepsPanel : Prop :=
  ∀ s, (coreReset s).st = .uninitialized ∧ (coreReset s).hnd = .unopened ∧ (coreReset s).res = .ok ∧
    (coreReset s).busy = false ∧ (coreReset s).opk = .none ∧ (coreReset s).seq = 0 ∧
    (coreReset s).trace = [] ∧ (coreReset s).replies = [] ∧ (coreReset s).cleared ∧
    (∀ a, (coreReset s).ramByte a = s.ramByte a) ∧
    ((∀ k got, s.panel.rx ≠ .param k got) → (coreReset s).panel = s.panel) ∧
    (∀ k got, s.panel.rx = .param k got → (coreReset s).panel.rx = .lost)

/-- From an INITIALIZE at the start of its program, with distinct opcodes, a panel at a command boundary
and 26 acknowledging answers: after 27 steps ST is Ready, RES is OK, the core is idle with its
handle open, the history is longer by exactly the 26 writes of the initialization stream, the
panel's configuration is that of the table of 10_state R27 whatever it was before, its window and
write position are as they were, and every byte of its RAM is unchanged. (R27, R28, R80, R82, R128,
R134.) The panel is the reference receiver (log 12). -/
def Obligations.InitializeRunsToReady : Prop :=
  ∀ s h as, s.sending h → s.opk = .init → s.seq = 0 → s.queue = initStream s.par.ops →
    s.panelReady → s.script = List.replicate 26 .ok ++ as →
    ∃ t, Sys2Proof.core.run 27 s = .next t ∧ t.st = .ready ∧ t.res = .ok ∧ t.busy = false ∧
      t.cleared ∧ t.hnd = .opened h ∧ t.seq = 26 ∧ t.script = as ∧
      t.trace = s.trace ++ (initStream s.par.ops).map (fun x => .write h x .acknowledged) ∧
      t.replies = s.replies ++ [⟨.initializeOp, .ok, none⟩] ∧
      t.panel.cfg = initializedCfg s.panel.cfg ∧ t.panel.rx = .boundary ∧
      ∀ a, t.ramByte a = s.ramByte a

/-- From an INITIALIZE at the start of its program, whatever the opcodes: if writes 0 to f-1 are
acknowledged and write f fails (f at most 25), then after f + 2 steps the history is longer by the f
acknowledged writes, the one failed write and one close; ST is Uninitialized, HND is UNOPENED, the
core is idle and RES is DeviceInitError(TransportWriteError at f) with the failed transaction.
(R128, R134, R155, R156.) -/
def Obligations.InitializeAbortIsPrecise : Prop :=
  ∀ s h f a b as x, s.sending h → s.opk = .init → s.seq = 0 → s.queue = initStream s.par.ops →
    (initStream s.par.ops)[f]? = some x →
    s.script = List.replicate f .ok ++ .fail a :: b :: as →
    ∃ t ok, Sys2Proof.core.run (f + 2) s = .next t ∧ t.st = .uninitialized ∧ t.hnd = .unopened ∧
      t.busy = false ∧ t.cleared ∧ t.seq = f ∧
      t.res = .deviceInitError (.transportWriteError f x) ∧
      t.replies = s.replies ++ [⟨.initializeOp, t.res, none⟩] ∧
      t.trace = s.trace ++ ((initStream s.par.ops).take f).map (fun y => .write h y .acknowledged) ++
        [.write h x .failed, .closed h ok]

/-- From an UPDATE at the start of its program, with distinct opcodes, a panel at a command boundary in
horizontal mode and 1030 acknowledging answers: after 1032 steps RES is OK, ST and HND are
unchanged, the core is idle, the history is longer by exactly the 1030 writes of
UPDATE_PROGRAM(surf) in order, and for every pixel (x, y) bit y mod 8 of the panel RAM byte at page
y div 8, column x is the class of the pixel. (R36, R49, R119, R122, R123, R125, R129, R134.) The
panel is the reference receiver (log 12). -/
def Obligations.UpdateShowsTheSurface : Prop :=
  ∀ s h surf as, s.sending h → s.opk = .update → s.seq = 0 → s.queue = windowStream s.par.ops → s.pb = none →
    s.surf = some surf → panelSized surf = true →
    s.panelReady → s.panel.cfg.memMode = 0x00 → s.script = List.replicate 1030 .ok ++ as →
    ∃ t, Sys2Proof.core.run 1032 s = .next t ∧ t.res = .ok ∧ t.st = s.st ∧ t.hnd = .opened h ∧
      t.busy = false ∧ t.cleared ∧ t.seq = 1030 ∧ t.script = as ∧
      t.trace = s.trace ++ (updateStream s.par.ops surf).map (fun x => .write h x .acknowledged) ∧
      (updateStream s.par.ops surf).length = 1030 ∧
      t.replies = s.replies ++ [⟨.update, .ok, none⟩] ∧
      ∀ x y, x < 128 → y < 64 → ∃ b : Byte, t.ramByte (y / 8 * 128 + x) = some b ∧
        b.getLsbD (y % 8) = ink (readPixel surf x y)

/-- From an UPDATE at the start of its program, with distinct opcodes and a panel at a command boundary
in horizontal mode: if the six window writes and data writes 0 to k-1 are acknowledged and data
write k fails (k at most 1023), then after k + 9 steps RES is TransportWriteError at 6 + k, ST and
HND are unchanged, the history is longer by the 6 + k acknowledged writes and the one failed write,
and panel RAM positions below k hold the new frame's bytes, positions above k what they held before,
position k either. (R45, R54, R126, R134, R138, R156, R174.) The panel is the reference receiver
(log 12). -/
def Obligations.TornFrameIsPrecise : Prop :=
  ∀ s h surf k a as, s.sending h → s.opk = .update → s.seq = 0 → s.queue = windowStream s.par.ops → s.pb = none →
    s.surf = some surf → panelSized surf = true →
    s.panelReady → s.panel.cfg.memMode = 0x00 → k < 1024 →
    s.script = List.replicate (6 + k) .ok ++ .fail a :: as →
    ∃ t x, Sys2Proof.core.run (k + 9) s = .next t ∧ (updateStream s.par.ops surf)[6 + k]? = some x ∧
      t.res = .transportWriteError (6 + k) x ∧ t.st = s.st ∧ t.hnd = .opened h ∧ t.busy = false ∧
      t.cleared ∧ t.replies = s.replies ++ [⟨.update, t.res, none⟩] ∧
      t.trace = s.trace ++
        ((updateStream s.par.ops surf).take (6 + k)).map (fun y => .write h y .acknowledged) ++
        [.write h x .failed] ∧
      (∀ i, i < k → t.ramByte i = some (packByte surf (i / 128) (i % 128))) ∧
      (∀ i, k < i → t.ramByte i = s.ramByte i) ∧
      (t.ramByte k = s.ramByte k ∨ t.ramByte k = some (packByte surf (k / 128) (k % 128)))

/-- From an UPDATE at the start of its program, whatever the opcodes: if window writes 0 to f-1 are
acknowledged and write f fails (f at most 5), then after f + 2 steps RES is TransportWriteError at
f, ST and HND are unchanged, and the history is longer by the f acknowledged window writes and the
one failed write: no data byte is sent; with distinct opcodes and a panel at a command boundary
every byte of its RAM is unchanged. (R118, R126, R134, R155, R156.) The panel is the reference
receiver (log 12). -/
def Obligations.WindowAbortIsPrecise : Prop :=
  ∀ s h surf f a as x, s.sending h → s.opk = .update → s.seq = 0 → s.queue = windowStream s.par.ops → s.pb = none →
    s.surf = some surf → panelSized surf = true →
    (windowStream s.par.ops)[f]? = some x →
    s.script = List.replicate f .ok ++ .fail a :: as →
    ∃ t, Sys2Proof.core.run (f + 2) s = .next t ∧ t.res = .transportWriteError f x ∧ t.st = s.st ∧
      t.hnd = .opened h ∧ t.busy = false ∧ t.cleared ∧
      t.replies = s.replies ++ [⟨.update, t.res, none⟩] ∧
      t.trace = s.trace ++ ((windowStream s.par.ops).take f).map (fun y => .write h y .acknowledged) ++
        [.write h x .failed] ∧
      (s.panelReady → ∀ i, t.ramByte i = s.ramByte i)

/-- For a panel whose receiver is not lost: when the display is off no segment is lit; when it is on,
pumped, showing its RAM and not scrolling, a known RAM bit is lit exactly when it is 1 in normal
mode, and exactly when it is 0 in inverted mode; when it is on, pumped, in normal mode and switched
to all on, every segment is lit. (R84, R98, R103, R115, R63.) Which settings a lit segment needs is
the model's reading (log 12). -/
def Obligations.LitSegmentsFollowRam : Prop :=
  ∀ (p : Panel) page col n (b : Byte), p.rx ≠ .lost →
    (p.cfg.displayOn = false → p.lit page col n = some false) ∧
    (p.cfg.displayOn = true → p.cfg.ramDisplay = true → p.cfg.chargePump = 0x14 →
      p.cfg.scrolling = false → Memory.read p.ram (page * 128 + col) = some b →
      p.lit page col n = some (if p.cfg.inverted then !b.getLsbD n else b.getLsbD n)) ∧
    (p.cfg.displayOn = true → p.cfg.ramDisplay = false → p.cfg.chargePump = 0x14 →
      p.cfg.inverted = false → p.lit page col n = some true)
end

