-- ==== Sys2Proof/Laws/Decode.lean ====
section
/-! SUPPORT. The opcode table: a distinct table finds the command of its own opcodes. -/

namespace Sys2Proof

theorem Cmd.mem_all (c : Cmd) : c ∈ Cmd.all := by cases c <;> decide

/-- The command found for a byte has that byte as its opcode. -/
theorem OpTable.op_of_find {o : OpTable} {b : Byte} {c : Cmd} (h : o.find b = some c) : o.op c = b := by
  have := List.find?_some h
  simpa using this

/-- In a distinct table a command is found for its own opcode. -/
theorem OpTable.find_op {o : OpTable} (h : o.distinct = true) (c : Cmd) : o.find (o.op c) = some c := by
  have hn : (Cmd.all.map o.op).Nodup := by simpa [OpTable.distinct] using h
  have hinj := List.inj_on_of_nodup_map hn
  cases hf : o.find (o.op c) with
  | none =>
    have := List.find?_eq_none.mp hf c c.mem_all
    simp at this
  | some d =>
    rw [hinj d.mem_all c.mem_all (OpTable.op_of_find hf)]

theorem OpTable.mem_named {o : OpTable} {b : Byte} {c : Cmd} : c ∈ o.named b ↔ o.op c = b := by
  simp [OpTable.named, Cmd.mem_all]

/-- In a distinct table an opcode names its command and no other. -/
theorem OpTable.named_op {o : OpTable} (h : o.distinct = true) (c : Cmd) : o.named (o.op c) = [c] := by
  have hn : (Cmd.all.map o.op).Nodup := by simpa [OpTable.distinct] using h
  have hinj := List.inj_on_of_nodup_map hn
  have hnd : (o.named (o.op c)).Nodup := hn.of_map.filter _
  have hall : ∀ d ∈ o.named (o.op c), d = c := fun d hd =>
    hinj d.mem_all c.mem_all (OpTable.mem_named.mp hd)
  have hc : c ∈ o.named (o.op c) := OpTable.mem_named.mpr rfl
  match hl : o.named (o.op c) with
  | [] => simp [hl] at hc
  | [d] => rw [hall d (by simp [hl])]
  | d :: e :: l =>
    rw [hl] at hnd
    have := (hall d (by simp [hl])).trans (hall e (by simp [hl])).symm
    simp [this] at hnd

/-- Distinct host codes: the decoder reads each operation from its own code (30_encoding R60). -/
theorem decodeHost_encode {o : OpTable} (h : o.host.distinct = true) {i : Instr} {r : HostRequest}
    (he : encode o i = .host r) : decodeHost o.host r = some i := by
  simp only [HostCodes.distinct, decide_eq_true_eq, List.nodup_cons, List.mem_cons, not_or] at h
  cases i <;> cases he <;> simp_all [decodeHost, eq_comm]

/-- The default table is distinct (30_encoding R65). -/
theorem OpTable.default_distinct : OpTable.default.distinct = true := by decide

@[simp] theorem ctrlCmd_ne_ctrlData : ctrlCmd ≠ ctrlData := by decide

/-- Decoding at an opcode of a distinct table goes to its command. -/
theorem decodeWire_op {o : OpTable} (h : o.distinct = true) (c : Cmd) (rest : List Xact) :
    decodeWire o (⟨ctrlCmd, o.op c⟩ :: rest) = decodeCmd c rest := by
  simp [decodeWire, OpTable.find_op h]

/-- Decoding a data write. -/
theorem decodeWire_data (o : OpTable) (d : Byte) (rest : List Xact) :
    decodeWire o (⟨ctrlData, d⟩ :: rest) = .ok (.data d) rest := by
  simp [decodeWire]

end Sys2Proof
end

