-- ==== Sys2Proof/Laws/Memory.lean ====
section
/-! SUPPORT. The laws of memory: read after write, and that every operation keeps the canonical form. -/

namespace Sys2Proof.Machine

@[simp] theorem read_nil (a : Nat) : Memory.read [] a = none := rfl

theorem read_cons (k : Nat) (b : Byte) (m : Memory) (a : Nat) :
    Memory.read ((k, b) :: m) a = if k = a then some b else Memory.read m a := rfl

/-- A read after a write to the same place gives the value written. -/
theorem read_write_same (m : Memory) (a : Nat) (b : Byte) :
    Memory.read (Memory.write m a b) a = some b := by
  induction m with
  | nil => simp [Memory.write, Memory.read]
  | cons c m ih =>
    obtain ⟨k, v⟩ := c
    simp only [Memory.write]
    split
    · simp [Memory.read]
    · split
      · simp [Memory.read]
      · rename_i h
        simp [Memory.read, Ne.symm h, ih]

/-- A write leaves every other place alone. -/
theorem read_write_other (m : Memory) {a a' : Nat} (b : Byte) (h : a' ≠ a) :
    Memory.read (Memory.write m a b) a' = Memory.read m a' := by
  induction m with
  | nil => simp [Memory.write, Memory.read, Ne.symm h]
  | cons c m ih =>
    obtain ⟨k, v⟩ := c
    simp only [Memory.write]
    split
    · simp [Memory.read, Ne.symm h]
    · split
      · rename_i hk
        subst hk
        simp [Memory.read, Ne.symm h]
      · simp [Memory.read, ih]

theorem wfFrom_write (m : Memory) (lo a : Nat) (b : Byte) (hm : Memory.wfFrom lo m = true)
    (hlo : lo ≤ a) (ha : a < 1024) : Memory.wfFrom lo (Memory.write m a b) = true := by
  induction m generalizing lo with
  | nil => simp [Memory.write, Memory.wfFrom, hlo, ha]
  | cons c m ih =>
    obtain ⟨k, v⟩ := c
    simp only [Memory.wfFrom, Bool.and_eq_true, decide_eq_true_eq] at hm
    simp only [Memory.write]
    split
    · simp [Memory.wfFrom, hlo, ha, hm]; omega
    · split
      · simp_all [Memory.wfFrom]
      · simp only [Memory.wfFrom, Bool.and_eq_true, decide_eq_true_eq]
        exact ⟨hm.1, ih (k + 1) hm.2 (by omega)⟩

/-- A write inside the address space keeps the canonical form. -/
theorem wf_write (m : Memory) {a : Nat} (b : Byte) (hm : Memory.wf m = true) (ha : a < 1024) :
    Memory.wf (Memory.write m a b) = true :=
  wfFrom_write m 0 a b hm (Nat.zero_le a) ha

theorem wfFrom_ofBytes (bs : List Byte) (lo : Nat) (h : lo + bs.length ≤ 1024) :
    Memory.wfFrom lo (Memory.ofBytes lo bs) = true := by
  induction bs generalizing lo with
  | nil => rfl
  | cons b bs ih =>
    simp only [List.length_cons] at h
    simp only [Memory.ofBytes, Memory.wfFrom, Bool.and_eq_true, decide_eq_true_eq]
    exact ⟨⟨le_refl lo, by omega⟩, ih (lo + 1) (by omega)⟩

/-- A memory made of at most 1024 bytes is canonical. -/
theorem wf_ofBytes (bs : List Byte) (h : bs.length ≤ 1024) :
    Memory.wf (Memory.ofBytes 0 bs) = true :=
  wfFrom_ofBytes bs 0 (by omega)

theorem read_ofBytes (bs : List Byte) (lo i : Nat) :
    Memory.read (Memory.ofBytes lo bs) (lo + i) = bs[i]? := by
  induction bs generalizing lo i with
  | nil => rfl
  | cons b bs ih =>
    cases i with
    | zero => simp [Memory.ofBytes, Memory.read]
    | succ i =>
      have := ih (lo + 1) i
      simp only [Memory.ofBytes, Memory.read]
      rw [if_neg (by omega), show lo + (i + 1) = lo + 1 + i by omega, this]
      simp

theorem bytes_ofBytes (bs : List Byte) (lo : Nat) : Memory.bytes (Memory.ofBytes lo bs) = bs := by
  induction bs generalizing lo with
  | nil => rfl
  | cons b bs ih => simpa [Memory.ofBytes, Memory.bytes] using ih (lo + 1)

@[simp] theorem encodeBytes_length (surf : Surface) : (encodeBytes surf).length = 1024 := by
  simp [encodeBytes]

/-- The PageBuffer ENCODE builds is canonical. -/
theorem encodeBuffer_wf (surf : Surface) : Memory.wf (encodeBuffer surf) = true :=
  wf_ofBytes _ (by simp)

/-- The panel's write position is inside the panel RAM, by its widths. -/
theorem panel_addr_lt (p : Panel) : p.addr < 1024 := by
  have h1 := p.cfg.page.isLt
  have h2 := p.cfg.col.isLt
  simp only [Panel.addr, pageIndex]
  omega

theorem store_wf (p : Panel) (n : Nat) (b : Byte) (h : Memory.wf p.ram = true) :
    Memory.wf (p.store n b).ram = true := by
  unfold Panel.store
  split
  · exact wf_write _ _ h (panel_addr_lt p)
  · rfl

theorem collect_wf (p : Panel) (n : Nat) (k : Cmd) (got : List Byte) (h : Memory.wf p.ram = true) :
    Memory.wf (p.collect n k got).ram = true := by
  unfold Panel.collect
  split
  · exact h
  · unfold Panel.apply
    split
    · exact h
    · rfl

theorem opcode_wf (p : Panel) (o : OpTable) (n : Nat) (b : Byte) (h : Memory.wf p.ram = true) :
    Memory.wf (p.opcode o n b).ram = true := by
  unfold Panel.opcode
  split
  · exact collect_wf _ _ _ _ h
  · split
    · exact h
    · rfl
    · exact h
  · exact h

/-- Receiving a transaction keeps the panel RAM canonical. -/
theorem receive_wf (p : Panel) (o : OpTable) (n : Nat) (x : Xact) (h : Memory.wf p.ram = true) :
    Memory.wf (p.receive o n x).ram = true := by
  unfold Panel.receive
  split
  · rfl
  · split
    · exact collect_wf _ _ _ _ h
    · rfl
  · split
    · exact store_wf _ _ _ h
    · split
      · exact opcode_wf _ _ _ _ h
      · rfl

/-- So does a transaction that was not acknowledged. -/
theorem unsure_wf (p : Panel) (o : OpTable) (n : Nat) (a : Bool) (x : Xact)
    (h : Memory.wf p.ram = true) : Memory.wf (p.unsure o n a x).ram = true := by
  unfold Panel.unsure
  split
  · exact h
  · split
    · split
      · exact h
      · exact receive_wf p o n x h
    · split <;> exact h

theorem reset_ram_wf : Memory.wf State.reset.panel.ram = true := rfl

end Sys2Proof.Machine
end

