-- ==== Sys2Proof/Laws/Encoder.lean ====
section
/-! SUPPORT. What PACK and ENCODE compute, bit by bit and byte by byte. -/

namespace Sys2Proof.Machine

/-- Eight conditional bits set one after the other: bit `n` is condition `n`. -/
theorem setBits_getLsbD (f : Nat → Bool) (n : Nat) (hn : n < 8) :
    ((List.range 8).foldl (fun (b : Byte) n => if f n then b ||| ((1 : Byte) <<< n) else b) 0).getLsbD n
      = f n := by
  have key : ∀ b0 b1 b2 b3 b4 b5 b6 b7 : Bool, ∀ m : Fin 8,
      ((fun b : Byte => if b7 then b ||| (1 : Byte) <<< 7 else b)
      ((fun b : Byte => if b6 then b ||| (1 : Byte) <<< 6 else b)
      ((fun b : Byte => if b5 then b ||| (1 : Byte) <<< 5 else b)
      ((fun b : Byte => if b4 then b ||| (1 : Byte) <<< 4 else b)
      ((fun b : Byte => if b3 then b ||| (1 : Byte) <<< 3 else b)
      ((fun b : Byte => if b2 then b ||| (1 : Byte) <<< 2 else b)
      ((fun b : Byte => if b1 then b ||| (1 : Byte) <<< 1 else b)
      ((fun b : Byte => if b0 then b ||| (1 : Byte) <<< 0 else b) 0)))))))).getLsbD m.val
        = [b0, b1, b2, b3, b4, b5, b6, b7][m.val] := by
    intro b0 b1 b2 b3 b4 b5 b6 b7 m
    fin_cases m <;>
      (cases b0 <;> cases b1 <;> cases b2 <;> cases b3 <;> cases b4 <;> cases b5 <;> cases b6 <;>
        cases b7 <;> rfl)
  have hr : List.range 8 = [0, 1, 2, 3, 4, 5, 6, 7] := rfl
  rw [hr]
  simp only [List.foldl]
  have := key (f 0) (f 1) (f 2) (f 3) (f 4) (f 5) (f 6) (f 7) ⟨n, hn⟩
  simp only at this
  rw [this]
  interval_cases n <;> rfl

/-- Bit `n` of a packed byte (42_frame_encoder R110). -/
theorem packByte_getLsbD (surf : Surface) (page x n : Nat) (hn : n < 8) :
    (packByte surf page x).getLsbD n = ink (readPixel surf x (page * 8 + n)) :=
  setBits_getLsbD (fun n => ink (readPixel surf x (page * 8 + n))) n hn

/-- Byte `i` of what ENCODE writes (42_frame_encoder R111). -/
theorem encodeBytes_getElem? (surf : Surface) (i : Nat) (hi : i < 1024) :
    (encodeBytes surf)[i]? = some (packByte surf (i / 128) (i % 128)) := by
  simp [encodeBytes, hi]

/-- The PageBuffer at an index. -/
theorem read_encodeBuffer (surf : Surface) (i : Nat) (hi : i < 1024) :
    Memory.read (encodeBuffer surf) i = some (packByte surf (i / 128) (i % 128)) := by
  have := read_ofBytes (encodeBytes surf) 0 i
  rw [Nat.zero_add] at this
  rw [encodeBuffer, this, encodeBytes_getElem? surf i hi]

/-- The data writes of a PageBuffer that ENCODE built (43_address_window R122). -/
theorem frameStream_encodeBuffer (surf : Surface) :
    frameStream (encodeBuffer surf) = (encodeBytes surf).map fun b => ⟨ctrlData, b⟩ := by
  simp [frameStream, encodeBuffer, bytes_ofBytes]

end Sys2Proof.Machine
end

