-- ==== Sys2Proof/Laws/State.lean ====
section
/-! SUPPORT. One lemma per field per update of the state, true by `rfl`, so that no proof unfolds a record
update. -/

namespace Sys2Proof.Machine

/-! `drawn` -/

@[simp] theorem drawn_par (s : State) : (s.drawn).par = s.par := rfl
@[simp] theorem drawn_st (s : State) : (s.drawn).st = s.st := rfl
@[simp] theorem drawn_hnd (s : State) : (s.drawn).hnd = s.hnd := rfl
@[simp] theorem drawn_res (s : State) : (s.drawn).res = s.res := rfl
@[simp] theorem drawn_seq (s : State) : (s.drawn).seq = s.seq := rfl
@[simp] theorem drawn_busy (s : State) : (s.drawn).busy = s.busy := rfl
@[simp] theorem drawn_opk (s : State) : (s.drawn).opk = s.opk := rfl
@[simp] theorem drawn_pb (s : State) : (s.drawn).pb = s.pb := rfl
@[simp] theorem drawn_pg (s : State) : (s.drawn).pg = s.pg := rfl
@[simp] theorem drawn_col (s : State) : (s.drawn).col = s.col := rfl
@[simp] theorem drawn_acc (s : State) : (s.drawn).acc = s.acc := rfl
@[simp] theorem drawn_surf (s : State) : (s.drawn).surf = s.surf := rfl
@[simp] theorem drawn_queue (s : State) : (s.drawn).queue = s.queue := rfl
@[simp] theorem drawn_cmdRest (s : State) : (s.drawn).cmdRest = s.cmdRest := rfl
@[simp] theorem drawn_raised (s : State) : (s.drawn).raised = s.raised := rfl
@[simp] theorem drawn_ret (s : State) : (s.drawn).ret = s.ret := rfl
@[simp] theorem drawn_script (s : State) : (s.drawn).script = s.script.tail := rfl
@[simp] theorem drawn_draws (s : State) : (s.drawn).draws = s.draws + 1 := rfl
@[simp] theorem drawn_tokens (s : State) : (s.drawn).tokens = s.tokens := rfl
@[simp] theorem drawn_trace (s : State) : (s.drawn).trace = s.trace := rfl
@[simp] theorem drawn_hung (s : State) : (s.drawn).hung = s.hung := rfl
@[simp] theorem drawn_diags (s : State) : (s.drawn).diags = s.diags := rfl
@[simp] theorem drawn_reqs (s : State) : (s.drawn).reqs = s.reqs := rfl
@[simp] theorem drawn_replies (s : State) : (s.drawn).replies = s.replies := rfl
@[simp] theorem drawn_panel (s : State) : (s.drawn).panel = s.panel := rfl

/-! `accept` -/

@[simp] theorem accept_par (s : State) : (accept s).par = s.par := rfl
@[simp] theorem accept_st (s : State) : (accept s).st = s.st := rfl
@[simp] theorem accept_hnd (s : State) : (accept s).hnd = s.hnd := rfl
@[simp] theorem accept_res (s : State) : (accept s).res = s.res := rfl
@[simp] theorem accept_seq (s : State) : (accept s).seq = s.seq := rfl
@[simp] theorem accept_busy (s : State) : (accept s).busy = true := rfl
@[simp] theorem accept_opk (s : State) : (accept s).opk = .none := rfl
@[simp] theorem accept_pb (s : State) : (accept s).pb = none := rfl
@[simp] theorem accept_pg (s : State) : (accept s).pg = s.pg := rfl
@[simp] theorem accept_col (s : State) : (accept s).col = s.col := rfl
@[simp] theorem accept_acc (s : State) : (accept s).acc = s.acc := rfl
@[simp] theorem accept_surf (s : State) : (accept s).surf = none := rfl
@[simp] theorem accept_queue (s : State) : (accept s).queue = [] := rfl
@[simp] theorem accept_cmdRest (s : State) : (accept s).cmdRest = [] := rfl
@[simp] theorem accept_raised (s : State) : (accept s).raised = none := rfl
@[simp] theorem accept_ret (s : State) : (accept s).ret = s.ret := rfl
@[simp] theorem accept_script (s : State) : (accept s).script = s.script := rfl
@[simp] theorem accept_draws (s : State) : (accept s).draws = s.draws := rfl
@[simp] theorem accept_tokens (s : State) : (accept s).tokens = s.tokens := rfl
@[simp] theorem accept_trace (s : State) : (accept s).trace = s.trace := rfl
@[simp] theorem accept_hung (s : State) : (accept s).hung = s.hung := rfl
@[simp] theorem accept_diags (s : State) : (accept s).diags = s.diags := rfl
@[simp] theorem accept_reqs (s : State) : (accept s).reqs = s.reqs := rfl
@[simp] theorem accept_replies (s : State) : (accept s).replies = s.replies := rfl
@[simp] theorem accept_panel (s : State) : (accept s).panel = s.panel := rfl

/-! `startProgram` -/

@[simp] theorem startProgram_par (k : OpKind) (xs : List Xact) (s : State) : (startProgram k xs s).par = s.par := rfl
@[simp] theorem startProgram_st (k : OpKind) (xs : List Xact) (s : State) : (startProgram k xs s).st = s.st := rfl
@[simp] theorem startProgram_hnd (k : OpKind) (xs : List Xact) (s : State) : (startProgram k xs s).hnd = s.hnd := rfl
@[simp] theorem startProgram_res (k : OpKind) (xs : List Xact) (s : State) : (startProgram k xs s).res = s.res := rfl
@[simp] theorem startProgram_seq (k : OpKind) (xs : List Xact) (s : State) : (startProgram k xs s).seq = 0 := rfl
@[simp] theorem startProgram_busy (k : OpKind) (xs : List Xact) (s : State) : (startProgram k xs s).busy = s.busy := rfl
@[simp] theorem startProgram_opk (k : OpKind) (xs : List Xact) (s : State) : (startProgram k xs s).opk = k := rfl
@[simp] theorem startProgram_pb (k : OpKind) (xs : List Xact) (s : State) : (startProgram k xs s).pb = s.pb := rfl
@[simp] theorem startProgram_pg (k : OpKind) (xs : List Xact) (s : State) : (startProgram k xs s).pg = s.pg := rfl
@[simp] theorem startProgram_col (k : OpKind) (xs : List Xact) (s : State) : (startProgram k xs s).col = s.col := rfl
@[simp] theorem startProgram_acc (k : OpKind) (xs : List Xact) (s : State) : (startProgram k xs s).acc = s.acc := rfl
@[simp] theorem startProgram_surf (k : OpKind) (xs : List Xact) (s : State) : (startProgram k xs s).surf = s.surf := rfl
@[simp] theorem startProgram_queue (k : OpKind) (xs : List Xact) (s : State) : (startProgram k xs s).queue = xs := rfl
@[simp] theorem startProgram_cmdRest (k : OpKind) (xs : List Xact) (s : State) : (startProgram k xs s).cmdRest = s.cmdRest := rfl
@[simp] theorem startProgram_raised (k : OpKind) (xs : List Xact) (s : State) : (startProgram k xs s).raised = s.raised := rfl
@[simp] theorem startProgram_ret (k : OpKind) (xs : List Xact) (s : State) : (startProgram k xs s).ret = s.ret := rfl
@[simp] theorem startProgram_script (k : OpKind) (xs : List Xact) (s : State) : (startProgram k xs s).script = s.script := rfl
@[simp] theorem startProgram_draws (k : OpKind) (xs : List Xact) (s : State) : (startProgram k xs s).draws = s.draws := rfl
@[simp] theorem startProgram_tokens (k : OpKind) (xs : List Xact) (s : State) : (startProgram k xs s).tokens = s.tokens := rfl
@[simp] theorem startProgram_trace (k : OpKind) (xs : List Xact) (s : State) : (startProgram k xs s).trace = s.trace := rfl
@[simp] theorem startProgram_hung (k : OpKind) (xs : List Xact) (s : State) : (startProgram k xs s).hung = s.hung := rfl
@[simp] theorem startProgram_diags (k : OpKind) (xs : List Xact) (s : State) : (startProgram k xs s).diags = s.diags := rfl
@[simp] theorem startProgram_reqs (k : OpKind) (xs : List Xact) (s : State) : (startProgram k xs s).reqs = s.reqs := rfl
@[simp] theorem startProgram_replies (k : OpKind) (xs : List Xact) (s : State) : (startProgram k xs s).replies = s.replies := rfl
@[simp] theorem startProgram_panel (k : OpKind) (xs : List Xact) (s : State) : (startProgram k xs s).panel = s.panel := rfl

/-! `finish` -/

@[simp] theorem finish_par (op : HostOp) (v : Result) (s : State) : (finish op v s).par = s.par := rfl
@[simp] theorem finish_st (op : HostOp) (v : Result) (s : State) : (finish op v s).st = s.st := rfl
@[simp] theorem finish_hnd (op : HostOp) (v : Result) (s : State) : (finish op v s).hnd = s.hnd := rfl
@[simp] theorem finish_res (op : HostOp) (v : Result) (s : State) : (finish op v s).res = v := rfl
@[simp] theorem finish_seq (op : HostOp) (v : Result) (s : State) : (finish op v s).seq = s.seq := rfl
@[simp] theorem finish_busy (op : HostOp) (v : Result) (s : State) : (finish op v s).busy = false := rfl
@[simp] theorem finish_opk (op : HostOp) (v : Result) (s : State) : (finish op v s).opk = .none := rfl
@[simp] theorem finish_pb (op : HostOp) (v : Result) (s : State) : (finish op v s).pb = none := rfl
@[simp] theorem finish_pg (op : HostOp) (v : Result) (s : State) : (finish op v s).pg = s.pg := rfl
@[simp] theorem finish_col (op : HostOp) (v : Result) (s : State) : (finish op v s).col = s.col := rfl
@[simp] theorem finish_acc (op : HostOp) (v : Result) (s : State) : (finish op v s).acc = s.acc := rfl
@[simp] theorem finish_surf (op : HostOp) (v : Result) (s : State) : (finish op v s).surf = none := rfl
@[simp] theorem finish_queue (op : HostOp) (v : Result) (s : State) : (finish op v s).queue = [] := rfl
@[simp] theorem finish_cmdRest (op : HostOp) (v : Result) (s : State) : (finish op v s).cmdRest = [] := rfl
@[simp] theorem finish_raised (op : HostOp) (v : Result) (s : State) : (finish op v s).raised = none := rfl
@[simp] theorem finish_ret (op : HostOp) (v : Result) (s : State) : (finish op v s).ret = s.ret := rfl
@[simp] theorem finish_script (op : HostOp) (v : Result) (s : State) : (finish op v s).script = s.script := rfl
@[simp] theorem finish_draws (op : HostOp) (v : Result) (s : State) : (finish op v s).draws = s.draws := rfl
@[simp] theorem finish_tokens (op : HostOp) (v : Result) (s : State) : (finish op v s).tokens = s.tokens := rfl
@[simp] theorem finish_trace (op : HostOp) (v : Result) (s : State) : (finish op v s).trace = s.trace := rfl
@[simp] theorem finish_hung (op : HostOp) (v : Result) (s : State) : (finish op v s).hung = s.hung := rfl
@[simp] theorem finish_diags (op : HostOp) (v : Result) (s : State) : (finish op v s).diags = s.diags := rfl
@[simp] theorem finish_reqs (op : HostOp) (v : Result) (s : State) : (finish op v s).reqs = s.reqs := rfl
@[simp] theorem finish_replies (op : HostOp) (v : Result) (s : State) : (finish op v s).replies = s.replies ++ [⟨op, v, none⟩] := rfl
@[simp] theorem finish_panel (op : HostOp) (v : Result) (s : State) : (finish op v s).panel = s.panel := rfl

/-! `expand` -/

@[simp] theorem expand_par (xs : List Xact) (s : State) : (expand xs s).par = s.par := rfl
@[simp] theorem expand_st (xs : List Xact) (s : State) : (expand xs s).st = s.st := rfl
@[simp] theorem expand_hnd (xs : List Xact) (s : State) : (expand xs s).hnd = s.hnd := rfl
@[simp] theorem expand_res (xs : List Xact) (s : State) : (expand xs s).res = s.res := rfl
@[simp] theorem expand_seq (xs : List Xact) (s : State) : (expand xs s).seq = s.seq := rfl
@[simp] theorem expand_busy (xs : List Xact) (s : State) : (expand xs s).busy = s.busy := rfl
@[simp] theorem expand_opk (xs : List Xact) (s : State) : (expand xs s).opk = s.opk := rfl
@[simp] theorem expand_pb (xs : List Xact) (s : State) : (expand xs s).pb = s.pb := rfl
@[simp] theorem expand_pg (xs : List Xact) (s : State) : (expand xs s).pg = s.pg := rfl
@[simp] theorem expand_col (xs : List Xact) (s : State) : (expand xs s).col = s.col := rfl
@[simp] theorem expand_acc (xs : List Xact) (s : State) : (expand xs s).acc = s.acc := rfl
@[simp] theorem expand_surf (xs : List Xact) (s : State) : (expand xs s).surf = s.surf := rfl
@[simp] theorem expand_queue (xs : List Xact) (s : State) : (expand xs s).queue = xs ++ s.queue := rfl
@[simp] theorem expand_cmdRest (xs : List Xact) (s : State) : (expand xs s).cmdRest = s.cmdRest := rfl
@[simp] theorem expand_raised (xs : List Xact) (s : State) : (expand xs s).raised = s.raised := rfl
@[simp] theorem expand_ret (xs : List Xact) (s : State) : (expand xs s).ret = s.ret := rfl
@[simp] theorem expand_script (xs : List Xact) (s : State) : (expand xs s).script = s.script := rfl
@[simp] theorem expand_draws (xs : List Xact) (s : State) : (expand xs s).draws = s.draws := rfl
@[simp] theorem expand_tokens (xs : List Xact) (s : State) : (expand xs s).tokens = s.tokens := rfl
@[simp] theorem expand_trace (xs : List Xact) (s : State) : (expand xs s).trace = s.trace := rfl
@[simp] theorem expand_hung (xs : List Xact) (s : State) : (expand xs s).hung = s.hung := rfl
@[simp] theorem expand_diags (xs : List Xact) (s : State) : (expand xs s).diags = s.diags := rfl
@[simp] theorem expand_reqs (xs : List Xact) (s : State) : (expand xs s).reqs = s.reqs := rfl
@[simp] theorem expand_replies (xs : List Xact) (s : State) : (expand xs s).replies = s.replies := rfl
@[simp] theorem expand_panel (xs : List Xact) (s : State) : (expand xs s).panel = s.panel := rfl

/-! `placeRequest` -/

@[simp] theorem placeRequest_par (r : HostRequest) (s : State) : (placeRequest r s).par = s.par := rfl
@[simp] theorem placeRequest_st (r : HostRequest) (s : State) : (placeRequest r s).st = s.st := rfl
@[simp] theorem placeRequest_hnd (r : HostRequest) (s : State) : (placeRequest r s).hnd = s.hnd := rfl
@[simp] theorem placeRequest_res (r : HostRequest) (s : State) : (placeRequest r s).res = s.res := rfl
@[simp] theorem placeRequest_seq (r : HostRequest) (s : State) : (placeRequest r s).seq = s.seq := rfl
@[simp] theorem placeRequest_busy (r : HostRequest) (s : State) : (placeRequest r s).busy = false := rfl
@[simp] theorem placeRequest_opk (r : HostRequest) (s : State) : (placeRequest r s).opk = s.opk := rfl
@[simp] theorem placeRequest_pb (r : HostRequest) (s : State) : (placeRequest r s).pb = s.pb := rfl
@[simp] theorem placeRequest_pg (r : HostRequest) (s : State) : (placeRequest r s).pg = s.pg := rfl
@[simp] theorem placeRequest_col (r : HostRequest) (s : State) : (placeRequest r s).col = s.col := rfl
@[simp] theorem placeRequest_acc (r : HostRequest) (s : State) : (placeRequest r s).acc = s.acc := rfl
@[simp] theorem placeRequest_surf (r : HostRequest) (s : State) : (placeRequest r s).surf = s.surf := rfl
@[simp] theorem placeRequest_queue (r : HostRequest) (s : State) : (placeRequest r s).queue = s.queue := rfl
@[simp] theorem placeRequest_cmdRest (r : HostRequest) (s : State) : (placeRequest r s).cmdRest = s.cmdRest := rfl
@[simp] theorem placeRequest_raised (r : HostRequest) (s : State) : (placeRequest r s).raised = s.raised := rfl
@[simp] theorem placeRequest_ret (r : HostRequest) (s : State) : (placeRequest r s).ret = s.ret := rfl
@[simp] theorem placeRequest_script (r : HostRequest) (s : State) : (placeRequest r s).script = s.script := rfl
@[simp] theorem placeRequest_draws (r : HostRequest) (s : State) : (placeRequest r s).draws = s.draws := rfl
@[simp] theorem placeRequest_tokens (r : HostRequest) (s : State) : (placeRequest r s).tokens = s.tokens := rfl
@[simp] theorem placeRequest_trace (r : HostRequest) (s : State) : (placeRequest r s).trace = s.trace := rfl
@[simp] theorem placeRequest_hung (r : HostRequest) (s : State) : (placeRequest r s).hung = false := rfl
@[simp] theorem placeRequest_diags (r : HostRequest) (s : State) : (placeRequest r s).diags = s.diags := rfl
@[simp] theorem placeRequest_reqs (r : HostRequest) (s : State) : (placeRequest r s).reqs = r :: s.reqs := rfl
@[simp] theorem placeRequest_replies (r : HostRequest) (s : State) : (placeRequest r s).replies = s.replies := rfl
@[simp] theorem placeRequest_panel (r : HostRequest) (s : State) : (placeRequest r s).panel = s.panel := rfl

/-! `placeWire` -/

@[simp] theorem placeWire_par (xs : List Xact) (s : State) : (placeWire xs s).par = s.par := rfl
@[simp] theorem placeWire_st (xs : List Xact) (s : State) : (placeWire xs s).st = s.st := rfl
@[simp] theorem placeWire_hnd (xs : List Xact) (s : State) : (placeWire xs s).hnd = holdHandle s.hnd := rfl
@[simp] theorem placeWire_res (xs : List Xact) (s : State) : (placeWire xs s).res = s.res := rfl
@[simp] theorem placeWire_seq (xs : List Xact) (s : State) : (placeWire xs s).seq = s.seq := rfl
@[simp] theorem placeWire_busy (xs : List Xact) (s : State) : (placeWire xs s).busy = true := rfl
@[simp] theorem placeWire_opk (xs : List Xact) (s : State) : (placeWire xs s).opk = if s.opk = .none then .init else s.opk := rfl
@[simp] theorem placeWire_pb (xs : List Xact) (s : State) : (placeWire xs s).pb = s.pb := rfl
@[simp] theorem placeWire_pg (xs : List Xact) (s : State) : (placeWire xs s).pg = s.pg := rfl
@[simp] theorem placeWire_col (xs : List Xact) (s : State) : (placeWire xs s).col = s.col := rfl
@[simp] theorem placeWire_acc (xs : List Xact) (s : State) : (placeWire xs s).acc = s.acc := rfl
@[simp] theorem placeWire_surf (xs : List Xact) (s : State) : (placeWire xs s).surf = s.surf := rfl
@[simp] theorem placeWire_queue (xs : List Xact) (s : State) : (placeWire xs s).queue = xs := rfl
@[simp] theorem placeWire_cmdRest (xs : List Xact) (s : State) : (placeWire xs s).cmdRest = [] := rfl
@[simp] theorem placeWire_raised (xs : List Xact) (s : State) : (placeWire xs s).raised = none := rfl
@[simp] theorem placeWire_ret (xs : List Xact) (s : State) : (placeWire xs s).ret = s.ret := rfl
@[simp] theorem placeWire_script (xs : List Xact) (s : State) : (placeWire xs s).script = s.script := rfl
@[simp] theorem placeWire_draws (xs : List Xact) (s : State) : (placeWire xs s).draws = s.draws := rfl
@[simp] theorem placeWire_tokens (xs : List Xact) (s : State) : (placeWire xs s).tokens = s.tokens := rfl
@[simp] theorem placeWire_trace (xs : List Xact) (s : State) : (placeWire xs s).trace = s.trace := rfl
@[simp] theorem placeWire_hung (xs : List Xact) (s : State) : (placeWire xs s).hung = false := rfl
@[simp] theorem placeWire_diags (xs : List Xact) (s : State) : (placeWire xs s).diags = s.diags := rfl
@[simp] theorem placeWire_reqs (xs : List Xact) (s : State) : (placeWire xs s).reqs = s.reqs := rfl
@[simp] theorem placeWire_replies (xs : List Xact) (s : State) : (placeWire xs s).replies = s.replies := rfl
@[simp] theorem placeWire_panel (xs : List Xact) (s : State) : (placeWire xs s).panel = s.panel := rfl

/-! `transportOpen`: the fields it leaves alone -/

@[simp] theorem transportOpen_par (addr : BitVec 7) (s : State) : (transportOpen addr s).par = s.par := by
  unfold transportOpen; split <;> rfl
@[simp] theorem transportOpen_st (addr : BitVec 7) (s : State) : (transportOpen addr s).st = s.st := by
  unfold transportOpen; split <;> rfl
@[simp] theorem transportOpen_hnd (addr : BitVec 7) (s : State) : (transportOpen addr s).hnd = s.hnd := by
  unfold transportOpen; split <;> rfl
@[simp] theorem transportOpen_res (addr : BitVec 7) (s : State) : (transportOpen addr s).res = s.res := by
  unfold transportOpen; split <;> rfl
@[simp] theorem transportOpen_seq (addr : BitVec 7) (s : State) : (transportOpen addr s).seq = s.seq := by
  unfold transportOpen; split <;> rfl
@[simp] theorem transportOpen_busy (addr : BitVec 7) (s : State) : (transportOpen addr s).busy = s.busy := by
  unfold transportOpen; split <;> rfl
@[simp] theorem transportOpen_opk (addr : BitVec 7) (s : State) : (transportOpen addr s).opk = s.opk := by
  unfold transportOpen; split <;> rfl
@[simp] theorem transportOpen_pb (addr : BitVec 7) (s : State) : (transportOpen addr s).pb = s.pb := by
  unfold transportOpen; split <;> rfl
@[simp] theorem transportOpen_pg (addr : BitVec 7) (s : State) : (transportOpen addr s).pg = s.pg := by
  unfold transportOpen; split <;> rfl
@[simp] theorem transportOpen_col (addr : BitVec 7) (s : State) : (transportOpen addr s).col = s.col := by
  unfold transportOpen; split <;> rfl
@[simp] theorem transportOpen_acc (addr : BitVec 7) (s : State) : (transportOpen addr s).acc = s.acc := by
  unfold transportOpen; split <;> rfl
@[simp] theorem transportOpen_surf (addr : BitVec 7) (s : State) : (transportOpen addr s).surf = s.surf := by
  unfold transportOpen; split <;> rfl
@[simp] theorem transportOpen_queue (addr : BitVec 7) (s : State) : (transportOpen addr s).queue = s.queue := by
  unfold transportOpen; split <;> rfl
@[simp] theorem transportOpen_cmdRest (addr : BitVec 7) (s : State) : (transportOpen addr s).cmdRest = s.cmdRest := by
  unfold transportOpen; split <;> rfl
@[simp] theorem transportOpen_raised (addr : BitVec 7) (s : State) : (transportOpen addr s).raised = s.raised := by
  unfold transportOpen; split <;> rfl
@[simp] theorem transportOpen_diags (addr : BitVec 7) (s : State) : (transportOpen addr s).diags = s.diags := by
  unfold transportOpen; split <;> rfl
@[simp] theorem transportOpen_reqs (addr : BitVec 7) (s : State) : (transportOpen addr s).reqs = s.reqs := by
  unfold transportOpen; split <;> rfl
@[simp] theorem transportOpen_replies (addr : BitVec 7) (s : State) : (transportOpen addr s).replies = s.replies := by
  unfold transportOpen; split <;> rfl
@[simp] theorem transportOpen_panel (addr : BitVec 7) (s : State) : (transportOpen addr s).panel = s.panel := by
  unfold transportOpen; split <;> rfl

/-! `transportWrite`: the fields it leaves alone -/

@[simp] theorem transportWrite_par (h : Nat) (x : Xact) (s : State) : (transportWrite h x s).par = s.par := by
  unfold transportWrite; split <;> (try split) <;> rfl
@[simp] theorem transportWrite_st (h : Nat) (x : Xact) (s : State) : (transportWrite h x s).st = s.st := by
  unfold transportWrite; split <;> (try split) <;> rfl
@[simp] theorem transportWrite_hnd (h : Nat) (x : Xact) (s : State) : (transportWrite h x s).hnd = s.hnd := by
  unfold transportWrite; split <;> (try split) <;> rfl
@[simp] theorem transportWrite_res (h : Nat) (x : Xact) (s : State) : (transportWrite h x s).res = s.res := by
  unfold transportWrite; split <;> (try split) <;> rfl
@[simp] theorem transportWrite_seq (h : Nat) (x : Xact) (s : State) : (transportWrite h x s).seq = s.seq := by
  unfold transportWrite; split <;> (try split) <;> rfl
@[simp] theorem transportWrite_busy (h : Nat) (x : Xact) (s : State) : (transportWrite h x s).busy = s.busy := by
  unfold transportWrite; split <;> (try split) <;> rfl
@[simp] theorem transportWrite_opk (h : Nat) (x : Xact) (s : State) : (transportWrite h x s).opk = s.opk := by
  unfold transportWrite; split <;> (try split) <;> rfl
@[simp] theorem transportWrite_pb (h : Nat) (x : Xact) (s : State) : (transportWrite h x s).pb = s.pb := by
  unfold transportWrite; split <;> (try split) <;> rfl
@[simp] theorem transportWrite_pg (h : Nat) (x : Xact) (s : State) : (transportWrite h x s).pg = s.pg := by
  unfold transportWrite; split <;> (try split) <;> rfl
@[simp] theorem transportWrite_col (h : Nat) (x : Xact) (s : State) : (transportWrite h x s).col = s.col := by
  unfold transportWrite; split <;> (try split) <;> rfl
@[simp] theorem transportWrite_acc (h : Nat) (x : Xact) (s : State) : (transportWrite h x s).acc = s.acc := by
  unfold transportWrite; split <;> (try split) <;> rfl
@[simp] theorem transportWrite_surf (h : Nat) (x : Xact) (s : State) : (transportWrite h x s).surf = s.surf := by
  unfold transportWrite; split <;> (try split) <;> rfl
@[simp] theorem transportWrite_queue (h : Nat) (x : Xact) (s : State) : (transportWrite h x s).queue = s.queue := by
  unfold transportWrite; split <;> (try split) <;> rfl
@[simp] theorem transportWrite_cmdRest (h : Nat) (x : Xact) (s : State) : (transportWrite h x s).cmdRest = s.cmdRest := by
  unfold transportWrite; split <;> (try split) <;> rfl
@[simp] theorem transportWrite_raised (h : Nat) (x : Xact) (s : State) : (transportWrite h x s).raised = s.raised := by
  unfold transportWrite; split <;> (try split) <;> rfl
@[simp] theorem transportWrite_tokens (h : Nat) (x : Xact) (s : State) : (transportWrite h x s).tokens = s.tokens := by
  unfold transportWrite; split <;> (try split) <;> rfl
@[simp] theorem transportWrite_diags (h : Nat) (x : Xact) (s : State) : (transportWrite h x s).diags = s.diags := by
  unfold transportWrite; split <;> (try split) <;> rfl
@[simp] theorem transportWrite_reqs (h : Nat) (x : Xact) (s : State) : (transportWrite h x s).reqs = s.reqs := by
  unfold transportWrite; split <;> (try split) <;> rfl
@[simp] theorem transportWrite_replies (h : Nat) (x : Xact) (s : State) : (transportWrite h x s).replies = s.replies := by
  unfold transportWrite; split <;> (try split) <;> rfl

/-! `transportClose`: the fields it leaves alone -/

@[simp] theorem transportClose_par (h : Nat) (s : State) : (transportClose h s).par = s.par := by
  unfold transportClose; split <;> rfl
@[simp] theorem transportClose_st (h : Nat) (s : State) : (transportClose h s).st = s.st := by
  unfold transportClose; split <;> rfl
@[simp] theorem transportClose_hnd (h : Nat) (s : State) : (transportClose h s).hnd = s.hnd := by
  unfold transportClose; split <;> rfl
@[simp] theorem transportClose_res (h : Nat) (s : State) : (transportClose h s).res = s.res := by
  unfold transportClose; split <;> rfl
@[simp] theorem transportClose_seq (h : Nat) (s : State) : (transportClose h s).seq = s.seq := by
  unfold transportClose; split <;> rfl
@[simp] theorem transportClose_busy (h : Nat) (s : State) : (transportClose h s).busy = s.busy := by
  unfold transportClose; split <;> rfl
@[simp] theorem transportClose_opk (h : Nat) (s : State) : (transportClose h s).opk = s.opk := by
  unfold transportClose; split <;> rfl
@[simp] theorem transportClose_pb (h : Nat) (s : State) : (transportClose h s).pb = s.pb := by
  unfold transportClose; split <;> rfl
@[simp] theorem transportClose_pg (h : Nat) (s : State) : (transportClose h s).pg = s.pg := by
  unfold transportClose; split <;> rfl
@[simp] theorem transportClose_col (h : Nat) (s : State) : (transportClose h s).col = s.col := by
  unfold transportClose; split <;> rfl
@[simp] theorem transportClose_acc (h : Nat) (s : State) : (transportClose h s).acc = s.acc := by
  unfold transportClose; split <;> rfl
@[simp] theorem transportClose_surf (h : Nat) (s : State) : (transportClose h s).surf = s.surf := by
  unfold transportClose; split <;> rfl
@[simp] theorem transportClose_queue (h : Nat) (s : State) : (transportClose h s).queue = s.queue := by
  unfold transportClose; split <;> rfl
@[simp] theorem transportClose_cmdRest (h : Nat) (s : State) : (transportClose h s).cmdRest = s.cmdRest := by
  unfold transportClose; split <;> rfl
@[simp] theorem transportClose_raised (h : Nat) (s : State) : (transportClose h s).raised = s.raised := by
  unfold transportClose; split <;> rfl
@[simp] theorem transportClose_tokens (h : Nat) (s : State) : (transportClose h s).tokens = s.tokens := by
  unfold transportClose; split <;> rfl
@[simp] theorem transportClose_hung (h : Nat) (s : State) : (transportClose h s).hung = s.hung := by
  unfold transportClose; split <;> rfl
@[simp] theorem transportClose_reqs (h : Nat) (s : State) : (transportClose h s).reqs = s.reqs := by
  unfold transportClose; split <;> rfl
@[simp] theorem transportClose_replies (h : Nat) (s : State) : (transportClose h s).replies = s.replies := by
  unfold transportClose; split <;> rfl
@[simp] theorem transportClose_panel (h : Nat) (s : State) : (transportClose h s).panel = s.panel := by
  unfold transportClose; split <;> rfl

/-! `closeBus`: the fields it leaves alone -/

@[simp] theorem closeBus_par (s : State) : (closeBus s).par = s.par := by
  unfold closeBus; split <;> simp
@[simp] theorem closeBus_st (s : State) : (closeBus s).st = s.st := by
  unfold closeBus; split <;> simp
@[simp] theorem closeBus_hnd (s : State) : (closeBus s).hnd = s.hnd := by
  unfold closeBus; split <;> simp
@[simp] theorem closeBus_res (s : State) : (closeBus s).res = s.res := by
  unfold closeBus; split <;> simp
@[simp] theorem closeBus_seq (s : State) : (closeBus s).seq = s.seq := by
  unfold closeBus; split <;> simp
@[simp] theorem closeBus_busy (s : State) : (closeBus s).busy = s.busy := by
  unfold closeBus; split <;> simp
@[simp] theorem closeBus_opk (s : State) : (closeBus s).opk = s.opk := by
  unfold closeBus; split <;> simp
@[simp] theorem closeBus_pb (s : State) : (closeBus s).pb = s.pb := by
  unfold closeBus; split <;> simp
@[simp] theorem closeBus_pg (s : State) : (closeBus s).pg = s.pg := by
  unfold closeBus; split <;> simp
@[simp] theorem closeBus_col (s : State) : (closeBus s).col = s.col := by
  unfold closeBus; split <;> simp
@[simp] theorem closeBus_acc (s : State) : (closeBus s).acc = s.acc := by
  unfold closeBus; split <;> simp
@[simp] theorem closeBus_surf (s : State) : (closeBus s).surf = s.surf := by
  unfold closeBus; split <;> simp
@[simp] theorem closeBus_queue (s : State) : (closeBus s).queue = s.queue := by
  unfold closeBus; split <;> simp
@[simp] theorem closeBus_cmdRest (s : State) : (closeBus s).cmdRest = s.cmdRest := by
  unfold closeBus; split <;> simp
@[simp] theorem closeBus_raised (s : State) : (closeBus s).raised = s.raised := by
  unfold closeBus; split <;> simp
@[simp] theorem closeBus_tokens (s : State) : (closeBus s).tokens = s.tokens := by
  unfold closeBus; split <;> simp
@[simp] theorem closeBus_hung (s : State) : (closeBus s).hung = s.hung := by
  unfold closeBus; split <;> simp
@[simp] theorem closeBus_reqs (s : State) : (closeBus s).reqs = s.reqs := by
  unfold closeBus; split <;> simp
@[simp] theorem closeBus_replies (s : State) : (closeBus s).replies = s.replies := by
  unfold closeBus; split <;> simp
@[simp] theorem closeBus_panel (s : State) : (closeBus s).panel = s.panel := by
  unfold closeBus; split <;> simp

/-! `releaseHandle`: the fields it leaves alone -/

@[simp] theorem releaseHandle_par (s : State) : (releaseHandle s).par = s.par := by
  simp [releaseHandle]
@[simp] theorem releaseHandle_st (s : State) : (releaseHandle s).st = s.st := by
  simp [releaseHandle]
@[simp] theorem releaseHandle_res (s : State) : (releaseHandle s).res = s.res := by
  simp [releaseHandle]
@[simp] theorem releaseHandle_seq (s : State) : (releaseHandle s).seq = s.seq := by
  simp [releaseHandle]
@[simp] theorem releaseHandle_busy (s : State) : (releaseHandle s).busy = s.busy := by
  simp [releaseHandle]
@[simp] theorem releaseHandle_opk (s : State) : (releaseHandle s).opk = s.opk := by
  simp [releaseHandle]
@[simp] theorem releaseHandle_pb (s : State) : (releaseHandle s).pb = s.pb := by
  simp [releaseHandle]
@[simp] theorem releaseHandle_pg (s : State) : (releaseHandle s).pg = s.pg := by
  simp [releaseHandle]
@[simp] theorem releaseHandle_col (s : State) : (releaseHandle s).col = s.col := by
  simp [releaseHandle]
@[simp] theorem releaseHandle_acc (s : State) : (releaseHandle s).acc = s.acc := by
  simp [releaseHandle]
@[simp] theorem releaseHandle_surf (s : State) : (releaseHandle s).surf = s.surf := by
  simp [releaseHandle]
@[simp] theorem releaseHandle_queue (s : State) : (releaseHandle s).queue = s.queue := by
  simp [releaseHandle]
@[simp] theorem releaseHandle_cmdRest (s : State) : (releaseHandle s).cmdRest = s.cmdRest := by
  simp [releaseHandle]
@[simp] theorem releaseHandle_raised (s : State) : (releaseHandle s).raised = s.raised := by
  simp [releaseHandle]
@[simp] theorem releaseHandle_tokens (s : State) : (releaseHandle s).tokens = s.tokens := by
  simp [releaseHandle]
@[simp] theorem releaseHandle_hung (s : State) : (releaseHandle s).hung = s.hung := by
  simp [releaseHandle]
@[simp] theorem releaseHandle_reqs (s : State) : (releaseHandle s).reqs = s.reqs := by
  simp [releaseHandle]
@[simp] theorem releaseHandle_replies (s : State) : (releaseHandle s).replies = s.replies := by
  simp [releaseHandle]
@[simp] theorem releaseHandle_panel (s : State) : (releaseHandle s).panel = s.panel := by
  simp [releaseHandle]

@[simp] theorem releaseHandle_hnd (s : State) : (releaseHandle s).hnd = .unopened := rfl

/-! `acknowledge`: the fields it leaves alone -/

@[simp] theorem acknowledge_par (x : Xact) (t : State) : (acknowledge x t).par = t.par := by
  unfold acknowledge; split <;> rfl
@[simp] theorem acknowledge_st (x : Xact) (t : State) : (acknowledge x t).st = t.st := by
  unfold acknowledge; split <;> rfl
@[simp] theorem acknowledge_hnd (x : Xact) (t : State) : (acknowledge x t).hnd = t.hnd := by
  unfold acknowledge; split <;> rfl
@[simp] theorem acknowledge_res (x : Xact) (t : State) : (acknowledge x t).res = t.res := by
  unfold acknowledge; split <;> rfl
@[simp] theorem acknowledge_busy (x : Xact) (t : State) : (acknowledge x t).busy = t.busy := by
  unfold acknowledge; split <;> rfl
@[simp] theorem acknowledge_opk (x : Xact) (t : State) : (acknowledge x t).opk = t.opk := by
  unfold acknowledge; split <;> rfl
@[simp] theorem acknowledge_pb (x : Xact) (t : State) : (acknowledge x t).pb = t.pb := by
  unfold acknowledge; split <;> rfl
@[simp] theorem acknowledge_pg (x : Xact) (t : State) : (acknowledge x t).pg = t.pg := by
  unfold acknowledge; split <;> rfl
@[simp] theorem acknowledge_col (x : Xact) (t : State) : (acknowledge x t).col = t.col := by
  unfold acknowledge; split <;> rfl
@[simp] theorem acknowledge_acc (x : Xact) (t : State) : (acknowledge x t).acc = t.acc := by
  unfold acknowledge; split <;> rfl
@[simp] theorem acknowledge_surf (x : Xact) (t : State) : (acknowledge x t).surf = t.surf := by
  unfold acknowledge; split <;> rfl
@[simp] theorem acknowledge_queue (x : Xact) (t : State) : (acknowledge x t).queue = t.queue := by
  unfold acknowledge; split <;> rfl
@[simp] theorem acknowledge_cmdRest (x : Xact) (t : State) : (acknowledge x t).cmdRest = t.cmdRest := by
  unfold acknowledge; split <;> rfl
@[simp] theorem acknowledge_ret (x : Xact) (t : State) : (acknowledge x t).ret = t.ret := by
  unfold acknowledge; split <;> rfl
@[simp] theorem acknowledge_script (x : Xact) (t : State) : (acknowledge x t).script = t.script := by
  unfold acknowledge; split <;> rfl
@[simp] theorem acknowledge_draws (x : Xact) (t : State) : (acknowledge x t).draws = t.draws := by
  unfold acknowledge; split <;> rfl
@[simp] theorem acknowledge_tokens (x : Xact) (t : State) : (acknowledge x t).tokens = t.tokens := by
  unfold acknowledge; split <;> rfl
@[simp] theorem acknowledge_trace (x : Xact) (t : State) : (acknowledge x t).trace = t.trace := by
  unfold acknowledge; split <;> rfl
@[simp] theorem acknowledge_hung (x : Xact) (t : State) : (acknowledge x t).hung = t.hung := by
  unfold acknowledge; split <;> rfl
@[simp] theorem acknowledge_diags (x : Xact) (t : State) : (acknowledge x t).diags = t.diags := by
  unfold acknowledge; split <;> rfl
@[simp] theorem acknowledge_reqs (x : Xact) (t : State) : (acknowledge x t).reqs = t.reqs := by
  unfold acknowledge; split <;> rfl
@[simp] theorem acknowledge_replies (x : Xact) (t : State) : (acknowledge x t).replies = t.replies := by
  unfold acknowledge; split <;> rfl
@[simp] theorem acknowledge_panel (x : Xact) (t : State) : (acknowledge x t).panel = t.panel := by
  unfold acknowledge; split <;> rfl

/-! `strideStep`: the fields it leaves alone -/

@[simp] theorem strideStep_par (x : Xact) (t : State) : (strideStep x t).par = t.par := by
  unfold strideStep; split <;> simp
@[simp] theorem strideStep_st (x : Xact) (t : State) : (strideStep x t).st = t.st := by
  unfold strideStep; split <;> simp
@[simp] theorem strideStep_hnd (x : Xact) (t : State) : (strideStep x t).hnd = t.hnd := by
  unfold strideStep; split <;> simp
@[simp] theorem strideStep_res (x : Xact) (t : State) : (strideStep x t).res = t.res := by
  unfold strideStep; split <;> simp
@[simp] theorem strideStep_busy (x : Xact) (t : State) : (strideStep x t).busy = t.busy := by
  unfold strideStep; split <;> simp
@[simp] theorem strideStep_opk (x : Xact) (t : State) : (strideStep x t).opk = t.opk := by
  unfold strideStep; split <;> simp
@[simp] theorem strideStep_pb (x : Xact) (t : State) : (strideStep x t).pb = t.pb := by
  unfold strideStep; split <;> simp
@[simp] theorem strideStep_acc (x : Xact) (t : State) : (strideStep x t).acc = t.acc := by
  unfold strideStep; split <;> simp
@[simp] theorem strideStep_surf (x : Xact) (t : State) : (strideStep x t).surf = t.surf := by
  unfold strideStep; split <;> simp
@[simp] theorem strideStep_queue (x : Xact) (t : State) : (strideStep x t).queue = t.queue := by
  unfold strideStep; split <;> simp
@[simp] theorem strideStep_cmdRest (x : Xact) (t : State) : (strideStep x t).cmdRest = t.cmdRest := by
  unfold strideStep; split <;> simp
@[simp] theorem strideStep_ret (x : Xact) (t : State) : (strideStep x t).ret = t.ret := by
  unfold strideStep; split <;> simp
@[simp] theorem strideStep_script (x : Xact) (t : State) : (strideStep x t).script = t.script := by
  unfold strideStep; split <;> simp
@[simp] theorem strideStep_draws (x : Xact) (t : State) : (strideStep x t).draws = t.draws := by
  unfold strideStep; split <;> simp
@[simp] theorem strideStep_tokens (x : Xact) (t : State) : (strideStep x t).tokens = t.tokens := by
  unfold strideStep; split <;> simp
@[simp] theorem strideStep_trace (x : Xact) (t : State) : (strideStep x t).trace = t.trace := by
  unfold strideStep; split <;> simp
@[simp] theorem strideStep_hung (x : Xact) (t : State) : (strideStep x t).hung = t.hung := by
  unfold strideStep; split <;> simp
@[simp] theorem strideStep_diags (x : Xact) (t : State) : (strideStep x t).diags = t.diags := by
  unfold strideStep; split <;> simp
@[simp] theorem strideStep_reqs (x : Xact) (t : State) : (strideStep x t).reqs = t.reqs := by
  unfold strideStep; split <;> simp
@[simp] theorem strideStep_replies (x : Xact) (t : State) : (strideStep x t).replies = t.replies := by
  unfold strideStep; split <;> simp
@[simp] theorem strideStep_panel (x : Xact) (t : State) : (strideStep x t).panel = t.panel := by
  unfold strideStep; split <;> simp

end Sys2Proof.Machine
end

