-- ==== Sys2Proof/Laws/Ops.lean ====
section
/-! SUPPORT. One lemma per shared operation, saying everything it can do; proofs cite these and do not
unfold the operation. -/

namespace Sys2Proof.Machine

@[simp] theorem thenDo_next (t : State) (f : State → State) : thenDo (.next t) f = .next (f t) := rfl
@[simp] theorem thenDo_fault (e : Fault) (f : State → State) : thenDo (.fault e) f = .fault e := rfl
@[simp] theorem thenDo_refused (e : Refusal) (f : State → State) :
    thenDo (.refused e) f = .refused e := rfl

theorem thenDo_eq_next {r : Host.Outcome State Fault Refusal} {f : State → State} {t : State}
    (h : thenDo r f = .next t) : ∃ u, r = .next u ∧ t = f u := by
  cases r with
  | next u => exact ⟨u, rfl, by simpa using h.symm⟩
  | fault e => simp at h
  | refused e => simp at h

/-- A register write completes exactly where the handle is open. -/
theorem writeRegister_opened {s : State} {h : Nat} (x : Xact) (hs : s.hnd = .opened h) :
    writeRegister x s = .next (transportWrite h x s) := by
  simp [writeRegister, hs]

theorem writeRegister_eq_next {x : Xact} {s t : State} (h : writeRegister x s = .next t) :
    ∃ k, s.hnd = .opened k ∧ t = transportWrite k x s := by
  unfold writeRegister at h
  split at h
  · rename_i k hk
    exact ⟨k, hk, by simpa using h.symm⟩
  · simp at h

theorem sendByte_opened {s : State} {h : Nat} (x : Xact) (hs : s.hnd = .opened h) :
    sendByte x s = .next (acknowledge x (transportWrite h x s)) := by
  simp [sendByte, writeRegister_opened x hs]

theorem sendByte_eq_next {x : Xact} {s t : State} (h : sendByte x s = .next t) :
    ∃ k, s.hnd = .opened k ∧ t = acknowledge x (transportWrite k x s) := by
  obtain ⟨u, hu, rfl⟩ := thenDo_eq_next h
  obtain ⟨k, hk, rfl⟩ := writeRegister_eq_next hu
  exact ⟨k, hk, rfl⟩

theorem answer_cons {s : State} {a : Answer} {as : List Answer} (h : s.script = a :: as) :
    s.answer = a := by
  simp [State.answer, h]

/-! What a register write does, by the answer. -/

theorem transportWrite_ok {s : State} (h : Nat) (x : Xact) (ha : s.answer = .ok) :
    transportWrite h x s =
      { s.drawn with
        trace := s.trace ++ [.write h x .acknowledged]
        panel := s.panel.receive s.par.ops s.draws x
        ret := .ok } := by
  simp [transportWrite, ha]

theorem transportWrite_fail {s : State} (h : Nat) (x : Xact) {a : Bool} (ha : s.answer = .fail a) :
    transportWrite h x s =
      { s.drawn with
        trace := s.trace ++ [.write h x .failed]
        panel := s.panel.unsure s.par.ops s.draws a x
        ret := .writeError } := by
  simp [transportWrite, ha]

theorem transportWrite_timeout {s : State} (h : Nat) (x : Xact) {a : Bool} {n : Nat}
    (ha : s.answer = .silent a) (hn : s.par.writeTimeout = some n) :
    transportWrite h x s =
      { s.drawn with
        trace := s.trace ++ [.write h x .timedOut]
        panel := s.panel.unsure s.par.ops s.draws a x
        ret := .writeError } := by
  simp [transportWrite, ha, hn]

theorem transportWrite_silent {s : State} (h : Nat) (x : Xact) {a : Bool}
    (ha : s.answer = .silent a) (hn : s.par.writeTimeout = none) :
    transportWrite h x s =
      { s.drawn with
        trace := s.trace ++ [.write h x .unanswered]
        panel := s.panel.unsure s.par.ops s.draws a x
        ret := .none
        hung := true } := by
  simp [transportWrite, ha, hn]

/-- Everything a register write can do: the three ends, each with one call in the history. -/
theorem transportWrite_cases (h : Nat) (x : Xact) (s : State) :
    (∃ w, (transportWrite h x s).trace = s.trace ++ [.write h x w]) ∧
    (transportWrite h x s).script = s.script.tail ∧
    (transportWrite h x s).draws = s.draws + 1 ∧
    (((transportWrite h x s).ret = .ok ∧ (transportWrite h x s).hung = s.hung) ∨
     ((transportWrite h x s).ret = .writeError ∧ (transportWrite h x s).hung = s.hung) ∨
     ((transportWrite h x s).ret = .none ∧ (transportWrite h x s).hung = true)) := by
  unfold transportWrite
  split
  · exact ⟨⟨_, rfl⟩, rfl, rfl, .inl ⟨rfl, rfl⟩⟩
  · exact ⟨⟨_, rfl⟩, rfl, rfl, .inr (.inl ⟨rfl, rfl⟩)⟩
  · split
    · exact ⟨⟨_, rfl⟩, rfl, rfl, .inr (.inl ⟨rfl, rfl⟩)⟩
    · exact ⟨⟨_, rfl⟩, rfl, rfl, .inr (.inr ⟨rfl, rfl⟩)⟩

/-- A register write keeps the panel RAM canonical. -/
theorem transportWrite_ram_wf (h : Nat) (x : Xact) (s : State)
    (hs : Memory.wf s.panel.ram = true) : Memory.wf (transportWrite h x s).panel.ram = true := by
  unfold transportWrite
  split
  · exact receive_wf _ _ _ _ hs
  · exact unsure_wf _ _ _ _ _ hs
  · split <;> exact unsure_wf _ _ _ _ _ hs

/-- Everything T_OPEN can do: a fresh handle, a failure, or no answer, each with one call in the history. -/
theorem transportOpen_cases (addr : BitVec 7) (s : State) :
    ((transportOpen addr s).ret = .handle (s.tokens + 1) ∧
      (transportOpen addr s).trace = s.trace ++ [.opened addr (s.tokens + 1)] ∧
      (transportOpen addr s).hung = s.hung ∧ (transportOpen addr s).tokens = s.tokens + 1) ∨
    ((transportOpen addr s).ret = .openError ∧
      (transportOpen addr s).trace = s.trace ++ [.openFailed addr] ∧
      (transportOpen addr s).hung = s.hung ∧ (transportOpen addr s).tokens = s.tokens) ∨
    ((transportOpen addr s).ret = .none ∧
      (transportOpen addr s).trace = s.trace ++ [.openUnanswered addr] ∧
      (transportOpen addr s).hung = true ∧ (transportOpen addr s).tokens = s.tokens) := by
  unfold transportOpen
  split
  · exact .inl ⟨rfl, rfl, rfl, rfl⟩
  · exact .inr (.inl ⟨rfl, rfl, rfl, rfl⟩)
  · exact .inr (.inr ⟨rfl, rfl, rfl, rfl⟩)

/-- A close adds one call to the history and never fails. -/
theorem transportClose_cases (h : Nat) (s : State) :
    (∃ ok, (transportClose h s).trace = s.trace ++ [.closed h ok]) ∧ (transportClose h s).ret = .ok := by
  unfold transportClose
  split <;> exact ⟨⟨_, rfl⟩, rfl⟩

/-- Releasing the handle: one close where it is open, nothing where it is not. -/
theorem releaseHandle_cases (s : State) :
    (s.hnd = .unopened ∧ (releaseHandle s).trace = s.trace) ∨
    (∃ h ok, s.hnd = .opened h ∧ (releaseHandle s).trace = s.trace ++ [.closed h ok]) := by
  cases hs : s.hnd with
  | unopened => exact .inl ⟨rfl, by simp [releaseHandle, closeBus, hs]⟩
  | opened h =>
    obtain ⟨⟨ok, hok⟩, -⟩ := transportClose_cases h s
    exact .inr ⟨h, ok, rfl, by simpa [releaseHandle, closeBus, hs] using hok⟩

/-! The loop of SEND_CMD and SEND_FRAME around a register write. -/

theorem acknowledge_ok {x : Xact} {t : State} (h : t.ret = .ok) :
    acknowledge x t = { t with seq := t.seq + 1 } := by
  simp [acknowledge, h]

theorem acknowledge_error {x : Xact} {t : State} (h : t.ret = .writeError) :
    acknowledge x t = { t with raised := some x } := by
  simp [acknowledge, h]

theorem acknowledge_none {x : Xact} {t : State} (h : t.ret = .none) : acknowledge x t = t := by
  simp [acknowledge, h]

/-- The stride does to `SEQ` and `raised` what SEND_CMD's loop does. -/
theorem strideStep_seq (x : Xact) (t : State) : (strideStep x t).seq = (acknowledge x t).seq := by
  unfold strideStep
  split <;> rfl

theorem strideStep_raised (x : Xact) (t : State) :
    (strideStep x t).raised = (acknowledge x t).raised := by
  unfold strideStep
  split <;> rfl

/-- The abort path answers a next state exactly inside INITIALIZE and UPDATE. -/
theorem abortOperation_cases (x : Xact) (s : State) :
    (s.opk = .init ∧ abortOperation x s =
      .next (finish .initializeOp (.deviceInitError (.transportWriteError s.seq x))
        { releaseHandle s with st := .uninitialized })) ∨
    (s.opk = .update ∧
      abortOperation x s = .next (finish .update (.transportWriteError s.seq x) s)) ∨
    (s.opk = .none ∧ abortOperation x s = .refused .abortOutsideOperation) := by
  cases h : s.opk <;> simp [abortOperation, h]

end Sys2Proof.Machine
end

