-- ==== Sys2Proof/Laws/Panel.lean ====
section
/-! SUPPORT. What the panel does with one received transaction, by where its receiver stands. -/

namespace Sys2Proof.Machine

/-- An opcode of a distinct table, at a command boundary. -/
theorem receive_opcode {p : Panel} {o : OpTable} (n : Nat) (hr : p.rx = .boundary)
    (hd : o.distinct = true) (c : Cmd) : p.receive o n ⟨ctrlCmd, o.op c⟩ = p.collect n c [] := by
  simp [Panel.receive, hr, Panel.opcode, OpTable.named_op hd]

/-- A byte of the catalogue, at a command boundary, writes no RAM. -/
theorem opcode_ram {p : Panel} {o : OpTable} (n : Nat) {b : Byte} (hb : o.named b ≠ []) :
    (p.opcode o n b).ram = p.ram := by
  unfold Panel.opcode
  split
  · rename_i k hk
    simp only [Panel.collect, List.length_nil]
    split
    · rfl
    · rename_i ha
      obtain ⟨c, hc⟩ : ∃ c, p.cfg.command k [] = some c := by
        cases k <;> first | exact ⟨_, rfl⟩ | exact absurd (by decide) ha
      simp [Panel.apply, hc]
  · rename_i hn
    exact absurd hn hb
  · rfl

/-- A setting that its family carries inside the opcode (30_encoding R63). -/
theorem opcode_embedded {p : Panel} {o : OpTable} (n : Nat) {b : Byte} {f : PanelCfg → PanelCfg}
    (hb : o.named b = []) (hf : embeddedSettings o b = [f]) :
    p.opcode o n b = { p with cfg := f p.cfg } := by
  simp [Panel.opcode, hb, hf]

/-- A parameter byte, inside a command. -/
theorem receive_parameter {p : Panel} {o : OpTable} (n : Nat) {k : Cmd} {got : List Byte}
    (hr : p.rx = .param k got) (b : Byte) :
    p.receive o n ⟨ctrlCmd, b⟩ = p.collect n k (got ++ [b]) := by
  simp [Panel.receive, hr]

/-- A data byte, at a command boundary. -/
theorem receive_data {p : Panel} {o : OpTable} (n : Nat) (hr : p.rx = .boundary) (b : Byte) :
    p.receive o n ⟨ctrlData, b⟩ = p.store n b := by
  simp [Panel.receive, hr]

/-- A lost receiver. -/
theorem receive_lost {p : Panel} {o : OpTable} (n : Nat) (hr : p.rx = .lost) (x : Xact) :
    p.receive o n x = Panel.garble n := by
  simp [Panel.receive, hr]

/-- A command that is not complete waits for its next parameter. -/
theorem collect_waits {p : Panel} (n : Nat) {k : Cmd} {got : List Byte} (h : got.length < k.arity) :
    p.collect n k got = { p with rx := .param k got } := by
  simp [Panel.collect, h]

/-- A complete command with an effect has it. -/
theorem collect_done {p : Panel} (n : Nat) {k : Cmd} {got : List Byte} {c : PanelCfg}
    (h : got.length = k.arity) (hc : p.cfg.command k got = some c) :
    p.collect n k got = { p with cfg := c, rx := .boundary } := by
  simp [Panel.collect, h, Panel.apply, hc]

/-- Every command without parameters has an effect. -/
theorem command_of_arity_zero (c : PanelCfg) {k : Cmd} (h : k.arity = 0) :
    ∃ c', c.command k [] = some c' := by
  cases k <;> first | exact ⟨_, rfl⟩ | cases h

/-- A data byte in horizontal addressing mode. -/
theorem store_horizontal {p : Panel} (n : Nat) (b : Byte) (h : p.cfg.memMode = 0x00) :
    p.store n b = { p with cfg := p.cfg.advance, ram := Memory.write p.ram p.addr b } := by
  simp [Panel.store, h]

/-- An unacknowledged parameter. -/
theorem unsure_parameter {p : Panel} {o : OpTable} (n : Nat) (a : Bool) (x : Xact) {k : Cmd}
    {got : List Byte} (hr : p.rx = .param k got) : p.unsure o n a x = p.lose n := by
  simp [Panel.unsure, hr]

/-- A transaction that was not acknowledged and not applied, at a command boundary, by whether it opens a
window command. -/
theorem unsure_not_applied {p : Panel} {o : OpTable} (n : Nat) (x : Xact) (hr : p.rx = .boundary) :
    p.unsure o n false x = if opensWindow o x then p.loseWindow n else p := by
  simp [Panel.unsure, hr]

/-- A data byte opens no command. -/
theorem opensWindow_data (o : OpTable) (b : Byte) : opensWindow o ⟨ctrlData, b⟩ = false := by
  simp [opensWindow, Ne.symm ctrlCmd_ne_ctrlData]

end Sys2Proof.Machine
end

