-- ==== Sys2Proof/Laws/PerInstr.lean ====
section
/-! SUPPORT. Statements made per instruction. `EncodeShape`: the wire words of an instruction are one to
three transactions, and none carries a control byte other than `0x00` and `0x40` (30_encoding R56, R57). -/

namespace Sys2Proof.Laws

/-- The shape of an instruction's wire words, if it has any. -/
def EncodeShape.Statement (i : Instr) : Prop :=
  ∀ o xs, encode o i = .wire xs →
    1 ≤ xs.length ∧ xs.length ≤ 3 ∧ ∀ x ∈ xs, x.ctrl = ctrlCmd ∨ x.ctrl = ctrlData

theorem commandXacts_shape (op : Byte) (ps : List Byte) (h : ps.length ≤ 2) :
    1 ≤ (commandXacts op ps).length ∧ (commandXacts op ps).length ≤ 3 ∧
      ∀ x ∈ commandXacts op ps, x.ctrl = ctrlCmd ∨ x.ctrl = ctrlData := by
  refine ⟨by simp [commandXacts], by simp [commandXacts]; omega, fun x hx => .inl ?_⟩
  obtain ⟨b, -, rfl⟩ := List.mem_map.mp hx
  rfl

theorem EncodeShape.initializeOp : EncodeShape.Statement .initializeOp := by
  intro o xs h; cases h
theorem EncodeShape.update (surf : Surface) : EncodeShape.Statement (.update surf) := by
  intro o xs h; cases h
theorem EncodeShape.dispose : EncodeShape.Statement .dispose := by
  intro o xs h; cases h
theorem EncodeShape.getWidth : EncodeShape.Statement .getWidth := by
  intro o xs h; cases h
theorem EncodeShape.getHeight : EncodeShape.Statement .getHeight := by
  intro o xs h; cases h
theorem EncodeShape.tOpen (addr : BitVec 7) : EncodeShape.Statement (.tOpen addr) := by
  intro o xs h; cases h
theorem EncodeShape.tWrite (ctrl byte : Byte) : EncodeShape.Statement (.tWrite ctrl byte) := by
  intro o xs h; cases h
theorem EncodeShape.tClose : EncodeShape.Statement .tClose := by
  intro o xs h; cases h
theorem EncodeShape.sendCmd (op : Byte) (params : List Byte) : EncodeShape.Statement (.sendCmd op params) := by
  intro o xs h; cases h
theorem EncodeShape.classify (v : Intensity) : EncodeShape.Statement (.classify v) := by
  intro o xs h; cases h
theorem EncodeShape.pack (surf : Surface) (page : BitVec 3) (x : BitVec 7) : EncodeShape.Statement (.pack surf page x) := by
  intro o xs h; cases h
theorem EncodeShape.encode (surf : Surface) : EncodeShape.Statement (.encode surf) := by
  intro o xs h; cases h
theorem EncodeShape.initSeq : EncodeShape.Statement .initSeq := by
  intro o xs h; cases h
theorem EncodeShape.setWindow : EncodeShape.Statement .setWindow := by
  intro o xs h; cases h
theorem EncodeShape.sendFrame : EncodeShape.Statement .sendFrame := by
  intro o xs h; cases h
theorem EncodeShape.updateProgram (surf : Surface) : EncodeShape.Statement (.updateProgram surf) := by
  intro o xs h; cases h
theorem EncodeShape.dispoff : EncodeShape.Statement .dispoff := by
  intro o xs h; cases h; exact commandXacts_shape _ _ (by simp)
theorem EncodeShape.clkdiv (p : Byte) : EncodeShape.Statement (.clkdiv p) := by
  intro o xs h; cases h; exact commandXacts_shape _ _ (by simp)
theorem EncodeShape.muxratio (p : Byte) : EncodeShape.Statement (.muxratio p) := by
  intro o xs h; cases h; exact commandXacts_shape _ _ (by simp)
theorem EncodeShape.dispoffset (p : Byte) : EncodeShape.Statement (.dispoffset p) := by
  intro o xs h; cases h; exact commandXacts_shape _ _ (by simp)
theorem EncodeShape.startline : EncodeShape.Statement .startline := by
  intro o xs h; cases h; exact commandXacts_shape _ _ (by simp)
theorem EncodeShape.chargepump (p : Byte) : EncodeShape.Statement (.chargepump p) := by
  intro o xs h; cases h; exact commandXacts_shape _ _ (by simp)
theorem EncodeShape.memmode (p : Byte) : EncodeShape.Statement (.memmode p) := by
  intro o xs h; cases h; exact commandXacts_shape _ _ (by simp)
theorem EncodeShape.segremap : EncodeShape.Statement .segremap := by
  intro o xs h; cases h; exact commandXacts_shape _ _ (by simp)
theorem EncodeShape.comscandec : EncodeShape.Statement .comscandec := by
  intro o xs h; cases h; exact commandXacts_shape _ _ (by simp)
theorem EncodeShape.compins (p : Byte) : EncodeShape.Statement (.compins p) := by
  intro o xs h; cases h; exact commandXacts_shape _ _ (by simp)
theorem EncodeShape.contrast (p : Byte) : EncodeShape.Statement (.contrast p) := by
  intro o xs h; cases h; exact commandXacts_shape _ _ (by simp)
theorem EncodeShape.precharge (p : Byte) : EncodeShape.Statement (.precharge p) := by
  intro o xs h; cases h; exact commandXacts_shape _ _ (by simp)
theorem EncodeShape.vcomdesel (p : Byte) : EncodeShape.Statement (.vcomdesel p) := by
  intro o xs h; cases h; exact commandXacts_shape _ _ (by simp)
theorem EncodeShape.resumeram : EncodeShape.Statement .resumeram := by
  intro o xs h; cases h; exact commandXacts_shape _ _ (by simp)
theorem EncodeShape.normaldisp : EncodeShape.Statement .normaldisp := by
  intro o xs h; cases h; exact commandXacts_shape _ _ (by simp)
theorem EncodeShape.scrolloff : EncodeShape.Statement .scrolloff := by
  intro o xs h; cases h; exact commandXacts_shape _ _ (by simp)
theorem EncodeShape.dispon : EncodeShape.Statement .dispon := by
  intro o xs h; cases h; exact commandXacts_shape _ _ (by simp)
theorem EncodeShape.coladdr (first last : Byte) : EncodeShape.Statement (.coladdr first last) := by
  intro o xs h; cases h; exact commandXacts_shape _ _ (by simp)
theorem EncodeShape.pageaddr (first last : Byte) : EncodeShape.Statement (.pageaddr first last) := by
  intro o xs h; cases h; exact commandXacts_shape _ _ (by simp)
theorem EncodeShape.invertdisp : EncodeShape.Statement .invertdisp := by
  intro o xs h; cases h; exact commandXacts_shape _ _ (by simp)
theorem EncodeShape.scrollon : EncodeShape.Statement .scrollon := by
  intro o xs h; cases h; exact commandXacts_shape _ _ (by simp)
theorem EncodeShape.data (d : Byte) : EncodeShape.Statement (.data d) := by
  intro o xs h; cases h; simp

end Sys2Proof.Laws
end

