-- ==== Sys2Proof/Laws/Step.lean ====
section
/-! SUPPORT. Everything one step can do (44_display_controller R133), said once: the provers cite
`step_cases` and do not unfold `step`. -/

namespace Sys2Proof.Machine

/-- The instructions the host issues. -/
def isHostOp : Instr → Bool
  | .initializeOp | .update _ | .dispose | .getWidth | .getHeight => true
  | _ => false

theorem isHostOp_of_decodeHost {c : HostCodes} {r : HostRequest} {i : Instr}
    (h : decodeHost c r = some i) : isHostOp i = true := by
  unfold decodeHost at h
  (repeat' split at h) <;> cases h <;> rfl

/-! ### What the decoder hands to `exec` -/

theorem decodeOne_eq_ok {c : Cmd} {f : Byte → Instr} {ys : List Xact} {i : Instr} {rest : List Xact}
    (h : decodeOne c f ys = .ok i rest) : ∃ p, i = f p ∧ ys = ⟨ctrlCmd, p⟩ :: rest := by
  cases ys with
  | nil => simp [decodeOne] at h
  | cons x ys =>
    simp only [decodeOne] at h
    split at h
    · cases x; simp_all
    · simp at h

theorem decodeTwo_eq_ok {c : Cmd} {f : Byte → Byte → Instr} {ys : List Xact} {i : Instr}
    {rest : List Xact} (h : decodeTwo c f ys = .ok i rest) :
    ∃ p q, i = f p q ∧ ys = ⟨ctrlCmd, p⟩ :: ⟨ctrlCmd, q⟩ :: rest := by
  cases ys with
  | nil => simp [decodeTwo] at h
  | cons x ys =>
    simp only [decodeTwo] at h
    split at h
    · obtain ⟨q, rfl, rfl⟩ := decodeOne_eq_ok h
      cases x; simp_all
    · simp at h

/-- A decoded stream is a data write, or a command that `exec` sends as one opcode and its parameters. -/
theorem exec_of_decodeWire {o : OpTable} {ys : List Xact} {i : Instr} {rest : List Xact}
    (h : decodeWire o ys = .ok i rest) :
    (∃ d, i = .data d ∧ ys = ⟨ctrlData, d⟩ :: rest) ∨
    ∃ op ps, ys = commandXacts op ps ++ rest ∧ encode o i = .wire (commandXacts op ps) ∧
      ∀ s : State, s.par.ops = o → exec i s = sendCommand op ps s := by
  cases ys with
  | nil => simp [decodeWire] at h
  | cons x ys =>
    obtain ⟨ct, b⟩ := x
    simp only [decodeWire] at h
    split at h
    · rename_i hc
      subst hc
      simp only [Decoded.ok.injEq] at h
      obtain ⟨rfl, rfl⟩ := h
      exact .inl ⟨_, rfl, rfl⟩
    · split at h
      · rename_i hc
        subst hc
        right
        split at h
        · rename_i c hf
          have hb := OpTable.op_of_find hf
          cases c <;> simp only [decodeCmd] at h <;> subst hb
          all_goals first
            | (obtain ⟨p, rfl, rfl⟩ := decodeOne_eq_ok h
               exact ⟨_, _, rfl, rfl, fun s hs => by subst hs; rfl⟩)
            | (obtain ⟨p, q, rfl, rfl⟩ := decodeTwo_eq_ok h
               exact ⟨_, _, rfl, rfl, fun s hs => by subst hs; rfl⟩)
            | (cases h; exact ⟨_, _, rfl, rfl, fun s hs => by subst hs; rfl⟩)
        · simp at h
      · simp at h

/-! ### The seven ways a step answers a next state -/

/-- What a step from `s` to `t` was. -/
inductive StepCase (s t : State) : Prop
  /-- nothing to do -/
  | idle (hb : s.busy = false) (he : t = s)
  /-- a request that spells no operation was dropped -/
  | ignore (hb : s.busy = false) (rest : List HostRequest) (he : t = { s with reqs := rest })
  /-- a host operation was issued -/
  | host (hb : s.busy = false) (i : Instr) (rest : List HostRequest) (hi : isHostOp i = true)
      (he : exec i { s with reqs := rest } = .next t)
  /-- the open step -/
  | opens (hb : s.busy = true) (ho : s.opk = .none) (hr : s.raised = none)
      (he : t = afterOpen (transportOpen devAddr s))
  /-- the write step: `x` is the first transaction not yet sent, `r` and `q` are what is left -/
  | write (hb : s.busy = true) (ho : s.opk ≠ .none) (hr : s.raised = none) (h : Nat)
      (hh : s.hnd = .opened h) (x : Xact) (q : List Xact) (r : List Byte)
      (hu : s.unsent = x :: (r.map fun b => ⟨ctrlCmd, b⟩) ++ q)
      (hd : (s.cmdRest = x.byte :: r ∧ q = s.queue) ∨
        (s.cmdRest = [] ∧ ∃ i, decodeWire s.par.ops s.queue = .ok i q ∧
          encode s.par.ops i = .wire (x :: r.map fun b => ⟨ctrlCmd, b⟩)) ∨
        (s.cmdRest = [] ∧ s.queue = x :: q ∧ r = [] ∧ ∃ why, decodeWire s.par.ops s.queue = .reject why))
      (he : t = acknowledge x (transportWrite h x { s with queue := q, cmdRest := r }) ∨
        t = strideStep x (transportWrite h x { s with queue := q, cmdRest := r }))
  /-- the encode step -/
  | frame (hb : s.busy = true) (ho : s.opk = .update) (hr : s.raised = none) (hc : s.cmdRest = [])
      (hq : s.queue = []) (hp : s.pb = none) (surf : Surface) (hs : s.surf = some surf)
      (hz : panelSized surf = true)
      (he : t = expand (frameStream (encodeBuffer surf))
        { s with
          pb := some (encodeBuffer surf)
          pg := 0
          col := 0
          acc := packByte surf 7 127
          ret := .ok })
  /-- the complete step -/
  | complete (hb : s.busy = true) (ho : s.opk ≠ .none) (hr : s.raised = none) (hc : s.cmdRest = [])
      (hq : s.queue = []) (hp : s.opk = .update → s.pb ≠ none) (he : t = completeOperation s)
  /-- the abort step -/
  | abort (hb : s.busy = true) (x : Xact) (hr : s.raised = some x) (he : abortOperation x s = .next t)

/-- Everything the step at an operation's write program can do. -/
theorem stepCase_of_nextEntry {s t : State} (hb : s.busy = true) (ho : s.opk ≠ .none)
    (hr : s.raised = none) (ha : nextAction s = nextEntry s) (h : step s = .next t) : StepCase s t := by
  unfold step at h
  rw [ha] at h
  cases hc : s.cmdRest with
  | cons b rest =>
    simp only [nextEntry, hc] at h
    obtain ⟨k, hk, rfl⟩ := sendByte_eq_next h
    refine .write hb ho hr k hk ⟨ctrlCmd, b⟩ s.queue rest ?_ (.inl ⟨hc, rfl⟩) (.inl rfl)
    simp [State.unsent, hc]
  | nil =>
    cases hqu : s.queue with
    | cons x rest =>
      simp only [nextEntry, hc, hqu] at h
      cases hd : decodeWire s.par.ops (x :: rest) with
      | reject why =>
        simp only [hd] at h
        obtain ⟨k, hk, rfl⟩ := sendByte_eq_next h
        refine .write hb ho hr k hk x rest [] ?_
          (.inr (.inr ⟨hc, hqu, rfl, why, by rw [hqu]; exact hd⟩)) (.inl ?_)
        · simp [State.unsent, hc, hqu]
        · rw [← hc]
      | ok i rest' =>
        simp only [hd] at h
        rcases exec_of_decodeWire hd with ⟨d, rfl, hys⟩ | ⟨op, ps, hys, he, hex⟩
        · simp only [exec, execData] at h
          obtain ⟨u, hu, rfl⟩ := thenDo_eq_next h
          obtain ⟨k, hk, rfl⟩ := writeRegister_eq_next hu
          refine .write hb ho hr k hk ⟨ctrlData, d⟩ rest' [] ?_
            (.inr (.inl ⟨hc, _, by rw [hqu]; exact hd, rfl⟩)) (.inr ?_)
          · simp only [State.unsent, hc, hqu, hys]; rfl
          · rw [← hc]
        · rw [hex { s with queue := rest', cmdRest := [] } rfl] at h
          obtain ⟨k, hk, rfl⟩ := sendByte_eq_next h
          refine .write hb ho hr k hk ⟨ctrlCmd, op⟩ rest' ps ?_
            (.inr (.inl ⟨hc, _, by rw [hqu]; exact hd, he⟩)) (.inl ?_)
          · simp only [State.unsent, hc, hqu, hys]; rfl
          · simp
    | nil =>
      by_cases hu : s.opk = .update ∧ s.pb = none
      · obtain ⟨hu, hp⟩ := hu
        cases hs : s.surf with
        | none => simp [nextEntry, hc, hqu, hu, hp, hs] at h
        | some surf =>
          simp only [nextEntry, hc, hqu, hu, hp, hs] at h
          by_cases hz : panelSized surf = true
          · simp only [exec, execEncode, hz, if_true, execSendFrame] at h
            refine .frame hb hu hr hc hqu hp surf hs hz ?_
            simpa [hc, hqu, hu, hs] using h.symm
          · simp [exec, execEncode, hz] at h
      · have hn : nextEntry s = .complete := by
          cases ho' : s.opk <;> cases hp : s.pb <;> simp_all [nextEntry]
        simp only [hn, Host.Outcome.next.injEq] at h
        exact .complete hb ho hr hc hqu (fun h1 h2 => hu ⟨h1, h2⟩) h.symm

/-- Everything a step can do: no call is hanging, and it was one of the steps of R133. -/
theorem step_cases {s t : State} (h : step s = .next t) : s.hung = false ∧ StepCase s t := by
  by_cases hh : s.hung = true
  · simp [step, nextAction, hh] at h
  · replace hh : s.hung = false := by simpa using hh
    refine ⟨hh, ?_⟩
    by_cases hb : s.busy = true
    · cases hr : s.raised with
      | some x =>
        have : nextAction s = .abort x := by simp [nextAction, hh, hb, hr]
        simp only [step, this] at h
        exact .abort hb x hr h
      | none =>
        cases ho : s.opk with
        | none =>
          have : nextAction s = .openBus := by simp [nextAction, hh, hb, hr, ho]
          simp only [step, this, exec, execTOpen, thenDo_next] at h
          cases h
          exact .opens hb ho hr rfl
        | init =>
          exact stepCase_of_nextEntry hb (by simp [ho]) hr (by simp [nextAction, hh, hb, hr, ho]) h
        | update =>
          exact stepCase_of_nextEntry hb (by simp [ho]) hr (by simp [nextAction, hh, hb, hr, ho]) h
    · replace hb : s.busy = false := by simpa using hb
      have : nextAction s = nextRequest s := by simp [nextAction, hh, hb]
      simp only [step, this] at h
      cases hq : s.reqs with
      | nil =>
        simp only [nextRequest, hq, Host.Outcome.next.injEq] at h
        exact .idle hb h.symm
      | cons r rest =>
        cases hd : decodeHost s.par.ops.host r with
        | none =>
          simp only [nextRequest, hq, hd, Host.Outcome.next.injEq] at h
          exact .ignore hb rest h.symm
        | some i =>
          simp only [nextRequest, hq, hd] at h
          exact .host hb i rest (isHostOp_of_decodeHost hd) h

/-! ### What the parts of a step do -/

/-- The open step, by the Transport's answer (44_display_controller R133). -/
theorem afterOpen_cases (s : State) :
    (s.answer = .ok ∧ afterOpen (transportOpen devAddr s) =
      startProgram .init (initStream s.par.ops)
        { s.drawn with
          tokens := s.tokens + 1
          trace := s.trace ++ [.opened devAddr (s.tokens + 1)]
          ret := .handle (s.tokens + 1)
          hnd := .opened (s.tokens + 1) }) ∨
    (∃ a, s.answer = .fail a ∧ afterOpen (transportOpen devAddr s) =
      finish .initializeOp (.deviceInitError .transportOpenError)
        { s.drawn with
          trace := s.trace ++ [.openFailed devAddr]
          ret := .openError
          st := .uninitialized }) ∨
    (∃ a, s.answer = .silent a ∧ afterOpen (transportOpen devAddr s) =
      { s.drawn with trace := s.trace ++ [.openUnanswered devAddr], ret := .none, hung := true }) := by
  cases ha : s.answer with
  | ok =>
    left
    refine ⟨rfl, ?_⟩
    simp only [transportOpen, ha, afterOpen]
    rfl
  | fail a =>
    right; left
    refine ⟨a, rfl, ?_⟩
    simp only [transportOpen, ha, afterOpen]
  | silent a =>
    right; right
    refine ⟨a, rfl, ?_⟩
    simp only [transportOpen, ha, afterOpen]

/-- Everything a register write with SEND_CMD's or SEND_FRAME's loop around it leaves as it was, and what
it changes, by its outcome `w`. -/
structure WriteEffect (h : Nat) (x : Xact) (s t : State) (w : WriteOutcome) : Prop where
  trace : t.trace = s.trace ++ [.write h x w]
  par : t.par = s.par
  st : t.st = s.st
  hnd : t.hnd = s.hnd
  res : t.res = s.res
  busy : t.busy = s.busy
  opk : t.opk = s.opk
  pb : t.pb = s.pb
  surf : t.surf = s.surf
  queue : t.queue = s.queue
  cmdRest : t.cmdRest = s.cmdRest
  reqs : t.reqs = s.reqs
  replies : t.replies = s.replies
  ram : Memory.wf s.panel.ram = true → Memory.wf t.panel.ram = true
  outcome :
    (w = .acknowledged ∧ t.seq = s.seq + 1 ∧ t.raised = s.raised ∧ t.hung = s.hung) ∨
    ((w = .failed ∨ w = .timedOut) ∧ t.seq = s.seq ∧ t.raised = some x ∧ t.hung = s.hung) ∨
    (w = .unanswered ∧ t.seq = s.seq ∧ t.raised = s.raised ∧ t.hung = true)

/-- The write step has one of the four outcomes. -/
theorem write_effect (h : Nat) (x : Xact) (s t : State)
    (e : t = acknowledge x (transportWrite h x s) ∨ t = strideStep x (transportWrite h x s)) :
    ∃ w, WriteEffect h x s t w := by
  have hram := transportWrite_ram_wf h x s
  cases ha : s.answer with
  | ok =>
    rw [transportWrite_ok h x ha] at *
    refine ⟨.acknowledged, ?_⟩
    rcases e with rfl | rfl <;>
      exact ⟨rfl, rfl, rfl, rfl, rfl, rfl, rfl, rfl, rfl, rfl, rfl, rfl, rfl, hram,
        .inl ⟨rfl, rfl, rfl, rfl⟩⟩
  | fail a =>
    rw [transportWrite_fail h x ha] at *
    refine ⟨.failed, ?_⟩
    rcases e with rfl | rfl <;>
      exact ⟨rfl, rfl, rfl, rfl, rfl, rfl, rfl, rfl, rfl, rfl, rfl, rfl, rfl, hram,
        .inr (.inl ⟨.inl rfl, rfl, rfl, rfl⟩)⟩
  | silent a =>
    cases hn : s.par.writeTimeout with
    | some n =>
      rw [transportWrite_timeout h x ha hn] at *
      refine ⟨.timedOut, ?_⟩
      rcases e with rfl | rfl <;>
        exact ⟨rfl, rfl, rfl, rfl, rfl, rfl, rfl, rfl, rfl, rfl, rfl, rfl, rfl, hram,
          .inr (.inl ⟨.inr rfl, rfl, rfl, rfl⟩)⟩
    | none =>
      rw [transportWrite_silent h x ha hn] at *
      refine ⟨.unanswered, ?_⟩
      rcases e with rfl | rfl <;>
        exact ⟨rfl, rfl, rfl, rfl, rfl, rfl, rfl, rfl, rfl, rfl, rfl, rfl, rfl, hram,
          .inr (.inr ⟨rfl, rfl, rfl, rfl⟩)⟩

/-- Releasing the handle, as a state. -/
theorem releaseHandle_eq (s : State) :
    (s.hnd = .unopened ∧ releaseHandle s = { s with ret := .ok }) ∨
    (∃ k ok d, s.hnd = .opened k ∧ releaseHandle s =
      { s.drawn with
        trace := s.trace ++ [.closed k ok]
        diags := d
        ret := .ok
        hnd := .unopened }) := by
  cases hk : s.hnd with
  | unopened =>
    left
    refine ⟨rfl, ?_⟩
    simp only [releaseHandle, closeBus, hk]
  | opened k =>
    right
    cases ha : s.answer
    · exact ⟨k, true, s.diags, rfl, by simp only [releaseHandle, closeBus, hk, transportClose, ha]; rfl⟩
    · exact ⟨k, false, s.diags ++ [.closeFailed k], rfl, by
        simp only [releaseHandle, closeBus, hk, transportClose, ha]⟩
    · exact ⟨k, false, s.diags ++ [.closeFailed k], rfl, by
        simp only [releaseHandle, closeBus, hk, transportClose, ha]⟩

/-- What an idle core does with a host operation. -/
theorem exec_host_cases {i : Instr} {s t : State} (hi : isHostOp i = true) (h : exec i s = .next t)
    (hb : s.busy = false) :
    (∃ op v, t = finish op v s ∧ v ≠ .transportOpenError) ∨
    (t = accept s ∧ s.hnd = .unopened) ∨
    (t = startProgram .init (initStream s.par.ops) (accept s) ∧ s.hnd ≠ .unopened) ∨
    (∃ surf, t = startProgram .update (windowStream s.par.ops) { accept s with surf := some surf } ∧
      s.st = .ready ∧ panelSized surf = true) ∨
    (t = finish .dispose .ok { s with st := .closed } ∧ s.hnd = .unopened) ∨
    (t = finish .dispose .ok { releaseHandle s with st := .closed } ∧ s.hnd ≠ .unopened) ∨
    (∃ op n, t = { s with ret := .dim n, replies := s.replies ++ [⟨op, .ok, some n⟩] }) := by
  cases i <;> cases hi
  · simp only [exec, execInitialize, hb, Bool.false_eq_true, if_false] at h
    split at h
    · cases h; exact .inl ⟨_, _, rfl, by simp⟩
    split at h
    · cases h; exact .inr (.inl ⟨rfl, by assumption⟩)
    · cases h; exact .inr (.inr (.inl ⟨rfl, by simp_all⟩))
  · simp only [exec, execUpdate, hb, Bool.false_eq_true, if_false] at h
    split at h
    · cases h
      rename_i hv
      refine .inl ⟨_, _, rfl, ?_⟩
      unfold updateError at hv
      split at hv
      · split at hv <;> cases hv; simp
      · cases hv; simp
    · rename_i hv
      cases h
      unfold updateError at hv
      split at hv
      · split at hv
        · exact .inr (.inr (.inr (.inl ⟨_, rfl, by assumption, by assumption⟩)))
        · cases hv
      · cases hv
  · simp only [exec, execDispose, hb, Bool.false_eq_true, if_false] at h
    split at h
    · cases h; exact .inr (.inr (.inr (.inr (.inl ⟨rfl, by assumption⟩))))
    · cases h; exact .inr (.inr (.inr (.inr (.inr (.inl ⟨rfl, by simp_all⟩)))))
  · cases h; exact .inr (.inr (.inr (.inr (.inr (.inr ⟨_, _, rfl⟩)))))
  · cases h; exact .inr (.inr (.inr (.inr (.inr (.inr ⟨_, _, rfl⟩)))))

/-- The complete step, inside an operation. -/
theorem completeOperation_cases {s : State} (ho : s.opk ≠ .none) :
    (s.opk = .init ∧ completeOperation s = finish .initializeOp .ok { s with st := .ready }) ∨
    (s.opk = .update ∧ completeOperation s = finish .update .ok s) := by
  cases hh : s.opk <;> simp [completeOperation, hh] at ho ⊢

/-- The step inside a command sends its next byte. -/
theorem step_resume {s : State} {h : Nat} {b : Byte} {rest : List Byte} (h1 : s.busy = true)
    (h2 : s.hung = false) (h3 : s.raised = none) (h4 : s.opk ≠ .none) (h5 : s.hnd = .opened h)
    (h6 : s.cmdRest = b :: rest) :
    step s = .next (acknowledge ⟨ctrlCmd, b⟩ (transportWrite h ⟨ctrlCmd, b⟩ { s with cmdRest := rest })) := by
  have : nextAction s = .resume b rest := by
    simp only [nextAction, h1, h2, h3]
    cases ho : s.opk <;> simp_all [nextEntry]
  simp only [step, this, resumeCommand]
  exact sendByte_opened _ h5

/-- The write step of R133, said once: an operation with something left to send sends the first of it,
whatever it is. -/
theorem step_send {s : State} {h : Nat} {x : Xact} {xs : List Xact} (h1 : s.busy = true)
    (h2 : s.hung = false) (h3 : s.raised = none) (h4 : s.opk ≠ .none) (h5 : s.hnd = .opened h)
    (h6 : s.unsent = x :: xs) :
    ∃ r q, xs = (r.map fun b => ⟨ctrlCmd, b⟩) ++ q ∧
      (step s = .next (acknowledge x (transportWrite h x { s with queue := q, cmdRest := r })) ∨
        step s = .next (strideStep x (transportWrite h x { s with queue := q, cmdRest := r }))) := by
  cases hc : s.cmdRest with
  | cons b rest =>
    simp only [State.unsent, hc, List.map_cons, List.cons_append, List.cons.injEq] at h6
    obtain ⟨rfl, rfl⟩ := h6
    exact ⟨rest, s.queue, rfl, .inl (step_resume h1 h2 h3 h4 h5 hc)⟩
  | nil =>
    have hqu : s.queue = x :: xs := by simpa [State.unsent, hc] using h6
    have hn : nextAction s = nextEntry s := by
      simp only [nextAction, h1, h2, h3]
      cases ho : s.opk <;> simp_all
    cases hd : decodeWire s.par.ops (x :: xs) with
    | reject why =>
      refine ⟨[], xs, rfl, .inl ?_⟩
      simp only [step, hn, nextEntry, hc, hqu, hd]
      rw [sendByte_opened x (by exact h5), ← hc]
    | ok i rest =>
      rcases exec_of_decodeWire hd with ⟨d, rfl, hys⟩ | ⟨op, ps, hys, he, hex⟩
      · obtain ⟨rfl, rfl⟩ : x = ⟨ctrlData, d⟩ ∧ xs = rest := by simpa using hys
        refine ⟨[], xs, rfl, .inr ?_⟩
        simp only [step, hn, nextEntry, hc, hqu, hd, exec, execData]
        rw [writeRegister_opened _ (by exact h5), thenDo_next, ← hc]
      · obtain ⟨rfl, rfl⟩ : x = ⟨ctrlCmd, op⟩ ∧ xs = (ps.map fun b => ⟨ctrlCmd, b⟩) ++ rest := by
          simpa [commandXacts] using hys
        refine ⟨ps, rest, rfl, .inl ?_⟩
        simp only [step, hn, nextEntry, hc, hqu, hd]
        rw [hex _ (by rfl), sendCommand, sendByte_opened _ (by exact h5)]
        simp

end Sys2Proof.Machine
end

