-- ==== Sys2Proof/Tests/Slice0.lean ====
section
/-! SUPPORT. The model's own tests: well-formedness, decoding of words written out bit by bit from the spec's
encodings, one small step per instruction, and for every obligation with hypotheses a state that meets them. -/

namespace Sys2Proof.Tests

open Sys2Proof Sys2Proof.Machine

/-! ### Small states -/

/-- A blank surface, a full one, and one with a single ink pixel (95_test_vectors 2.2). -/
def blank : Surface := ⟨128, 64, .per255 0x00, []⟩
def full : Surface := ⟨128, 64, .per255 0xFF, []⟩
def dot (x y : Nat) : Surface := ⟨128, 64, .per255 0x00, [((x, y), .per255 0xFF)]⟩

/-- A panel at a command boundary, every setting zero, with the window of an UPDATE. -/
def panel0 : Panel where
  cfg := { PanelCfg.ofBytes (fun _ => 0) with colEnd := 127, pageEnd := 7 }
  ram := []
  rx := .boundary

/-- An idle core in `Uninitialized`; in `Ready` with handle 1; in `Closed`. -/
def idle : State := { State.reset with panel := panel0 }
def ready (as : List Answer) : State :=
  { idle with st := .ready, hnd := .opened 1, tokens := 1, trace := [.opened 0x3C 1], script := as }
def closed : State := { idle with st := .closed }

/-- An INITIALIZE before its open step; at the start of its program; an UPDATE at the start of its program. -/
def opening (as : List Answer) : State := { idle with busy := true, script := as }
def initing (as : List Answer) : State :=
  { idle with
    busy := true
    opk := .init
    hnd := .opened 1
    tokens := 1
    trace := [.opened 0x3C 1]
    queue := initStream OpTable.default
    script := as }
def updating (surf : Surface) (as : List Answer) : State :=
  { ready as with
    busy := true
    opk := .update
    surf := some surf
    queue := windowStream OpTable.default }

/-- An INITIALIZE whose first write is never answered. -/
def hanging : State := { initing [] with hung := true, queue := (initStream OpTable.default).drop 1 }

/-- A field of the next state. -/
def after {α : Type} (r : Host.Outcome State Fault Refusal) (f : State → α) : Option α :=
  match r with
  | .next t => some (f t)
  | .fault _ => none
  | .refused _ => none

/-! ### Well-formedness: for each check a term it refuses -/

theorem test_wf_refuses_tOpen_address : Instr.wellFormed (.tOpen 0x3D) = false := by decide

theorem test_wf_refuses_tWrite_control : Instr.wellFormed (.tWrite 0x80 0x00) = false := by decide

theorem test_wf_refuses_sendCmd_three_parameters :
    Instr.wellFormed (.sendCmd 0x21 [0, 1, 2]) = false := by decide

theorem test_wf_refuses_pack_width : Instr.wellFormed (.pack ⟨127, 64, .nan, []⟩ 0 0) = false := by decide

theorem test_wf_refuses_pack_height : Instr.wellFormed (.pack ⟨128, 63, .nan, []⟩ 0 0) = false := by decide

theorem test_wf_refuses_encode_width : Instr.wellFormed (.encode ⟨129, 64, .nan, []⟩) = false := by decide

theorem test_wf_refuses_encode_height : Instr.wellFormed (.encode ⟨128, 65, .nan, []⟩) = false := by decide

theorem test_wf_refuses_updateProgram_size :
    Instr.wellFormed (.updateProgram ⟨64, 128, .nan, []⟩) = false := by decide

theorem test_wf_refuses_clkdiv : Instr.wellFormed (.clkdiv 0x81) = false := by decide

theorem test_wf_refuses_muxratio : Instr.wellFormed (.muxratio 0x3E) = false := by decide

theorem test_wf_refuses_dispoffset : Instr.wellFormed (.dispoffset 0x01) = false := by decide

theorem test_wf_refuses_chargepump : Instr.wellFormed (.chargepump 0x10) = false := by decide

theorem test_wf_refuses_memmode : Instr.wellFormed (.memmode 0x02) = false := by decide

theorem test_wf_refuses_compins : Instr.wellFormed (.compins 0x02) = false := by decide

theorem test_wf_refuses_contrast : Instr.wellFormed (.contrast 0xCE) = false := by decide

theorem test_wf_refuses_precharge : Instr.wellFormed (.precharge 0xF0) = false := by decide

theorem test_wf_refuses_vcomdesel : Instr.wellFormed (.vcomdesel 0x20) = false := by decide

theorem test_wf_refuses_coladdr_first : Instr.wellFormed (.coladdr 0x01 0x7F) = false := by decide

theorem test_wf_refuses_coladdr_last : Instr.wellFormed (.coladdr 0x00 0x7E) = false := by decide

theorem test_wf_refuses_pageaddr_first : Instr.wellFormed (.pageaddr 0x01 0x07) = false := by decide

theorem test_wf_refuses_pageaddr_last : Instr.wellFormed (.pageaddr 0x00 0x06) = false := by decide

theorem test_wf_accepts :
    [Instr.tOpen 0x3C, .tWrite 0x40 0xFF, .sendCmd 0x22 [0x00, 0x07], .pack blank 7 127, .clkdiv 0x80,
      .coladdr 0x00 0x7F, .pageaddr 0x00 0x07, .data 0x81].all Instr.wellFormed = true := by decide

/-! ### Decoding: every encoding of 30_encoding R60 and R64, written out bit by bit -/

theorem test_decode_initialize :
    decodeHost HostCodes.default ⟨0b001, zeroSurface⟩ = some .initializeOp := by decide

theorem test_decode_dispose : decodeHost HostCodes.default ⟨0b011, zeroSurface⟩ = some .dispose := by decide

theorem test_decode_getWidth :
    decodeHost HostCodes.default ⟨0b100, zeroSurface⟩ = some .getWidth := by decide

theorem test_decode_getHeight :
    decodeHost HostCodes.default ⟨0b101, zeroSurface⟩ = some .getHeight := by decide

theorem test_decode_update :
    decodeHost HostCodes.default ⟨0b010, dot 5 10⟩ = some (.update (dot 5 10)) := by decide

theorem test_decode_dispoff :
    decodeWire OpTable.default [⟨0b00000000, 0b10101110⟩] = .ok .dispoff [] := by decide

theorem test_decode_clkdiv :
    decodeWire OpTable.default [⟨0b00000000, 0b11010101⟩, ⟨0b00000000, 0b10000000⟩] = .ok (.clkdiv 0x80) [] := by decide

theorem test_decode_muxratio :
    decodeWire OpTable.default [⟨0b00000000, 0b10101000⟩, ⟨0b00000000, 0b00111111⟩] = .ok (.muxratio 0x3F) [] := by decide

theorem test_decode_dispoffset :
    decodeWire OpTable.default [⟨0b00000000, 0b11010011⟩, ⟨0b00000000, 0b00000000⟩] = .ok (.dispoffset 0x00) [] := by decide

theorem test_decode_startline :
    decodeWire OpTable.default [⟨0b00000000, 0b01000000⟩] = .ok .startline [] := by decide

theorem test_decode_chargepump :
    decodeWire OpTable.default [⟨0b00000000, 0b10001101⟩, ⟨0b00000000, 0b00010100⟩] = .ok (.chargepump 0x14) [] := by decide

theorem test_decode_memmode :
    decodeWire OpTable.default [⟨0b00000000, 0b00100000⟩, ⟨0b00000000, 0b00000000⟩] = .ok (.memmode 0x00) [] := by decide

theorem test_decode_segremap :
    decodeWire OpTable.default [⟨0b00000000, 0b10100001⟩] = .ok .segremap [] := by decide

theorem test_decode_comscandec :
    decodeWire OpTable.default [⟨0b00000000, 0b11001000⟩] = .ok .comscandec [] := by decide

theorem test_decode_compins :
    decodeWire OpTable.default [⟨0b00000000, 0b11011010⟩, ⟨0b00000000, 0b00010010⟩] = .ok (.compins 0x12) [] := by decide

theorem test_decode_contrast :
    decodeWire OpTable.default [⟨0b00000000, 0b10000001⟩, ⟨0b00000000, 0b11001111⟩] = .ok (.contrast 0xCF) [] := by decide

theorem test_decode_precharge :
    decodeWire OpTable.default [⟨0b00000000, 0b11011001⟩, ⟨0b00000000, 0b11110001⟩] = .ok (.precharge 0xF1) [] := by decide

theorem test_decode_vcomdesel :
    decodeWire OpTable.default [⟨0b00000000, 0b11011011⟩, ⟨0b00000000, 0b01000000⟩] = .ok (.vcomdesel 0x40) [] := by decide

theorem test_decode_resumeram :
    decodeWire OpTable.default [⟨0b00000000, 0b10100100⟩] = .ok .resumeram [] := by decide

theorem test_decode_normaldisp :
    decodeWire OpTable.default [⟨0b00000000, 0b10100110⟩] = .ok .normaldisp [] := by decide

theorem test_decode_scrolloff :
    decodeWire OpTable.default [⟨0b00000000, 0b00101110⟩] = .ok .scrolloff [] := by decide

theorem test_decode_dispon :
    decodeWire OpTable.default [⟨0b00000000, 0b10101111⟩] = .ok .dispon [] := by decide

theorem test_decode_coladdr :
    decodeWire OpTable.default [⟨0b00000000, 0b00100001⟩, ⟨0b00000000, 0b00000000⟩, ⟨0b00000000, 0b01111111⟩] = .ok (.coladdr 0x00 0x7F) [] := by decide

theorem test_decode_pageaddr :
    decodeWire OpTable.default [⟨0b00000000, 0b00100010⟩, ⟨0b00000000, 0b00000000⟩, ⟨0b00000000, 0b00000111⟩] = .ok (.pageaddr 0x00 0x07) [] := by decide

theorem test_decode_invertdisp :
    decodeWire OpTable.default [⟨0b00000000, 0b10100111⟩] = .ok .invertdisp [] := by decide

theorem test_decode_scrollon :
    decodeWire OpTable.default [⟨0b00000000, 0b00101111⟩] = .ok .scrollon [] := by decide

theorem test_decode_data :
    decodeWire OpTable.default [⟨0b01000000, 0b10000001⟩, ⟨0x00, 0xAE⟩] =
      .ok (.data 0b10000001) [⟨0x00, 0xAE⟩] := by decide

/-- R56: no other control byte. -/
theorem test_decode_refuses_control :
    decodeWire OpTable.default [⟨0x80, 0xAE⟩] = .reject (.badControl 0x80) := by decide

theorem test_decode_refuses_opcode :
    decodeWire OpTable.default [⟨0x00, 0xE3⟩] = .reject (.unknownOpcode 0xE3) := by decide

/-- R59: a parameter never has control byte `0x40`. -/
theorem test_decode_refuses_cut_command :
    decodeWire OpTable.default [⟨0x00, 0x21⟩, ⟨0x00, 0x00⟩, ⟨0x40, 0x7F⟩] =
      .reject (.missingParameter .coladdr) := by decide

theorem test_decode_refuses_nothing : decodeWire OpTable.default [] = .reject .endOfStream := by decide

/-- R68. -/
theorem test_decode_refuses_reserved_codes :
    [0b000, 0b110, 0b111].map (fun c => decodeHost HostCodes.default ⟨c, zeroSurface⟩) = [none, none, none] := by decide

/-- R66: `0x40` after VCOMDESEL is its parameter, the next one is STARTLINE. -/
theorem test_decode_position_decides :
    decodeWire OpTable.default [⟨0x00, 0xDB⟩, ⟨0x00, 0x40⟩, ⟨0x00, 0x40⟩] =
      .ok (.vcomdesel 0x40) [⟨0x00, 0x40⟩] := by decide

/-- The rows of spec/opcode_table.json, by `match`. -/
theorem test_tableWord_host : decodeTableWord 8 0x4 = some .getWidth := by decide

theorem test_tableWord_command :
    decodeTableWord 8 0xD5 = some (.clkdiv 0x00) ∧ decodeTableWord 32 0x8000D5 = some (.clkdiv 0x80) := by decide

theorem test_tableWord_window : decodeTableWord 48 0x7F00000021 = some (.coladdr 0x00 0x7F) := by decide

theorem test_tableWord_data : decodeTableWord 16 0x4081 = some (.data 0x81) := by decide

/-- The placed word is the very next instruction. -/
theorem test_fetchWord_host : step (idle.withFetchWord 8 0x4) = exec .getWidth idle := rfl

/-- An entry that is no command of the catalogue goes out as it stands; R63: `E = 1`. -/
theorem test_fetchWord_wire :
    after (step ((ready [.ok]).withFetchWord 8 0xA5)) (fun t => (t.trace.getLast?, t.panel.cfg.ramDisplay)) =
      some (some (.write 1 ⟨0x00, 0xA5⟩ .acknowledged), false) := by decide

/-- R9, R65: a build with CLKDIV's byte equal to DISPOFF's sends CLKDIV's parameter all the same. -/
theorem test_equal_opcodes_are_sent :
    after (step { initing [.ok] with
        par := { Params.default with ops := { OpTable.default with clkdiv := 0xAE } }
        seq := 2, queue := (initStream { OpTable.default with clkdiv := 0xAE }).drop 2 })
      (fun t => (t.trace.getLast?, t.seq)) = some (some (.write 1 ⟨0x00, 0x80⟩ .acknowledged), 3) := by decide

/-! ### One step of every instruction; expected results from 95_test_vectors and the rule named -/

/-- R128, R133: accepted, the open step is next. -/
theorem test_initialize_from_reset :
    after (exec .initializeOp idle) (fun t => (t.busy, t.opk, t.trace)) = some (true, .none, []) := by decide

/-- 95_test_vectors P4 step 4: `InvalidStateError`, code 5, no call. -/
theorem test_initialize_from_closed :
    after (exec .initializeOp closed) (fun t => (t.busy, resultCode t.par.errs t.res, t.st)) =
      some (false, 5, .closed) := by decide

/-- 95_test_vectors 2.9: the state check comes first. -/
theorem test_update_wrong_twice :
    after (exec (.update ⟨64, 128, .nan, []⟩) idle) (fun t => (resultCode t.par.errs t.res, t.trace)) = some (5, []) := by decide

/-- 95_test_vectors 2.9: 128 by 63 is `InvalidSurfaceError`. -/
theorem test_update_wrong_height :
    after (exec (.update ⟨128, 63, .nan, []⟩) (ready [])) (fun t => (resultCode t.par.errs t.res, t.queue)) =
      some (4, []) := by decide

/-- 95_test_vectors 2.9: `OK` whatever close answers. -/
theorem test_dispose_close_fails :
    after (exec .dispose (ready [.fail false])) (fun t => (t.st, t.hnd, t.res, t.diags)) =
      some (.closed, .unopened, .ok, [.closeFailed 1]) := by decide

/-- 95_test_vectors P4 step 1. -/
theorem test_dispose_from_reset :
    after (exec .dispose idle) (fun t => (t.st, t.res, t.trace)) = some (.closed, .ok, []) := by decide

/-- R131's example. -/
theorem test_getWidth : after (exec .getWidth State.reset) (fun t => t.ret) = some (.dim 128) := rfl

/-- R132's example. -/
theorem test_getHeight :
    after (exec .getHeight closed) (fun t => (t.ret, t.res)) = some (.dim 64, .ok) := by decide

/-- 95_test_vectors 2.4. -/
theorem test_tOpen_ok :
    after (exec (.tOpen 0x3C) (opening [.ok])) (fun t => (t.ret, t.trace)) =
      some (.handle 1, [.opened 0x3C 1]) := by decide

theorem test_tOpen_fail :
    after (exec (.tOpen 0x3C) (opening [.fail false])) (fun t => (t.ret, t.hnd)) =
      some (.openError, .unopened) := by decide

/-- 95_test_vectors 2.4: `SEQ` unchanged. -/
theorem test_tWrite_fail :
    after (exec (.tWrite 0x40 0x81) (ready [.fail false])) (fun t => (t.ret, t.seq)) =
      some (.writeError, 0) := by decide

/-- 95_test_vectors 2.4: stuck. -/
theorem test_tWrite_hangs :
    after (exec (.tWrite 0x40 0x00) (ready [.silent true])) (fun t => t.hung) = some true := by decide

/-- 95_test_vectors 2.4: `diag` only. -/
theorem test_tClose_fail :
    after (exec .tClose (ready [.fail true])) (fun t => (t.ret, t.diags)) = some (.ok, [.closeFailed 1]) := by decide

/-- R73: a no-op. -/
theorem test_tClose_sentinel :
    after (exec .tClose idle) (fun t => (t.ret, t.trace)) = some (.ok, []) := by decide

/-- 95_test_vectors 2.5. -/
theorem test_sendCmd_sends_opcode :
    after (exec (.sendCmd 0x81 [0xCF]) (initing [.ok, .ok])) (fun t => (t.cmdRest, t.seq, t.trace.getLast?)) =
      some ([0xCF], 1, some (.write 1 ⟨0x00, 0x81⟩ .acknowledged)) := by decide

/-- R63: `L = 63`, `R = 0`, `D = 0`. -/
theorem test_sendCmd_operand_in_opcode :
    [0x7F, 0xA0, 0xC0].map (fun b => after (exec (.sendCmd b []) (initing [.ok]))
      (fun t => (t.panel.cfg.startLine, t.panel.cfg.segRemap, t.panel.cfg.comScanDec, t.panel.rx))) =
      [some (63, false, false, .boundary), some (0, false, false, .boundary), some (0, false, false, .boundary)] := by decide

/-- 95_test_vectors 2.5: the parameter is not sent. -/
theorem test_sendCmd_fails_at_opcode :
    after (exec (.sendCmd 0x81 [0xCF]) (initing [.fail false])) (fun t => (t.raised, t.seq)) =
      some (some ⟨0x00, 0x81⟩, 0) := by decide

/-- 95_test_vectors 2.1: 0, 49/100, 1/2, 51/100, 1, -1, 2, NaN. -/
theorem test_classify_threshold :
    [Intensity.ratio 0 0, .ratio 49 99, .ratio 1 1, .ratio 51 99, .ratio 1 0, .ratio (-1) 0, .ratio 2 0, .nan].map ink
      = [false, false, false, true, true, false, true, false] := by decide

/-- R107 to R109: 1/2, the next binary64 above it, -3, and the infinities. -/
theorem test_classify_floats :
    [Intensity.float false 1 (-1), .float false 4503599627370497 (-53), .float true 3 0, .infinity false,
      .infinity true].map ink = [false, true, false, true, false] := by decide

/-- 95_test_vectors 2.1, the two 8-bit instantiations. -/
theorem test_classify_codes :
    [Intensity.per255 127, .per255 128, .per256 128, .per256 129].map ink = [false, true, false, true] := by decide

/-- R110's example. -/
theorem test_pack_two_rows :
    after (exec (.pack ⟨128, 64, .per255 0, [((10, 16), .per255 255), ((10, 23), .per255 255)]⟩ 2 10) idle)
      (fun t => t.acc) = some 0x81 := by decide

/-- R111's example. -/
theorem test_encode_dot :
    after (exec (.encode (dot 5 10)) idle) (fun t => (t.pbByte 133, t.pbByte 134)) =
      some (some 0x04, some 0x00) := by
  have h : panelSized (dot 5 10) = true := by decide
  simp only [exec, execEncode, h, if_true, after, State.pbByte, read_encodeBuffer _ 133 (by decide),
    read_encodeBuffer _ 134 (by decide)]
  decide

/-- 95_test_vectors 2.2: the largest index. -/
theorem test_encode_last :
    after (exec (.encode (dot 127 63)) idle) (fun t => t.pbByte 1023) = some (some 0x80) := by
  have h : panelSized (dot 127 63) = true := by decide
  simp only [exec, execEncode, h, if_true, after, State.pbByte, read_encodeBuffer _ 1023 (by decide)]
  decide

/-- 95_test_vectors 2.6. -/
theorem test_initSeq :
    after (exec .initSeq idle) (fun t => (t.queue.length, t.queue[9]?, t.queue[21]?)) =
      some (26, some ⟨0x00, 0x14⟩, some ⟨0x00, 0x40⟩) := by decide

/-- 95_test_vectors 2.7. -/
theorem test_setWindow :
    after (exec .setWindow idle) (fun t => t.queue.map Xact.byte) =
      some [0x21, 0x00, 0x7F, 0x22, 0x00, 0x07] := by decide

/-- R122: ascending index. -/
theorem test_sendFrame :
    after (exec .sendFrame { idle with pb := some [(0, 0x0A), (1, 0x0B)] }) (fun t => t.queue) =
      some [⟨0x40, 0x0A⟩, ⟨0x40, 0x0B⟩] := by decide

/-- R123: the window comes first. -/
theorem test_updateProgram :
    after (exec (.updateProgram blank) idle) (fun t => t.queue.take 6) =
      some (windowStream OpTable.default) := by
  have h : panelSized blank = true := by decide
  simp only [exec, execUpdateProgram, h, if_true, after]
  rfl

theorem test_dispoff :
    after (exec .dispoff (initing [.ok])) (fun t => (t.seq, t.trace.getLast?, t.panel.cfg.displayOn)) =
      some (1, some (.write 1 ⟨0x00, 0xAE⟩ .acknowledged), false) := by decide

theorem test_startline :
    after (exec .startline (initing [.ok])) (fun t => (t.seq, t.trace.getLast?, t.panel.cfg.startLine)) =
      some (1, some (.write 1 ⟨0x00, 0x40⟩ .acknowledged), 0) := by decide

theorem test_segremap :
    after (exec .segremap (initing [.ok])) (fun t => (t.seq, t.trace.getLast?, t.panel.cfg.segRemap)) =
      some (1, some (.write 1 ⟨0x00, 0xA1⟩ .acknowledged), true) := by decide

theorem test_comscandec :
    after (exec .comscandec (initing [.ok])) (fun t => (t.seq, t.trace.getLast?, t.panel.cfg.comScanDec)) =
      some (1, some (.write 1 ⟨0x00, 0xC8⟩ .acknowledged), true) := by decide

theorem test_resumeram :
    after (exec .resumeram (initing [.ok])) (fun t => (t.seq, t.trace.getLast?, t.panel.cfg.ramDisplay)) =
      some (1, some (.write 1 ⟨0x00, 0xA4⟩ .acknowledged), true) := by decide

theorem test_normaldisp :
    after (exec .normaldisp (initing [.ok])) (fun t => (t.seq, t.trace.getLast?, t.panel.cfg.inverted)) =
      some (1, some (.write 1 ⟨0x00, 0xA6⟩ .acknowledged), false) := by decide

theorem test_scrolloff :
    after (exec .scrolloff (initing [.ok])) (fun t => (t.seq, t.trace.getLast?, t.panel.cfg.scrolling)) =
      some (1, some (.write 1 ⟨0x00, 0x2E⟩ .acknowledged), false) := by decide

theorem test_dispon :
    after (exec .dispon (initing [.ok])) (fun t => (t.seq, t.trace.getLast?, t.panel.cfg.displayOn)) =
      some (1, some (.write 1 ⟨0x00, 0xAF⟩ .acknowledged), true) := by decide

theorem test_invertdisp :
    after (exec .invertdisp (initing [.ok])) (fun t => (t.seq, t.trace.getLast?, t.panel.cfg.inverted)) =
      some (1, some (.write 1 ⟨0x00, 0xA7⟩ .acknowledged), true) := by decide

theorem test_scrollon :
    after (exec .scrollon (initing [.ok])) (fun t => (t.seq, t.trace.getLast?, t.panel.cfg.scrolling)) =
      some (1, some (.write 1 ⟨0x00, 0x2F⟩ .acknowledged), true) := by decide

theorem test_clkdiv :
    after (exec (.clkdiv 0x80) (initing [.ok, .ok])) (fun t => (t.cmdRest, t.trace.getLast?, t.panel.rx)) =
      some ([0x80], some (.write 1 ⟨0x00, 0xD5⟩ .acknowledged), .param .clkdiv []) := by decide

theorem test_muxratio :
    after (exec (.muxratio 0x3F) (initing [.ok, .ok])) (fun t => (t.cmdRest, t.trace.getLast?, t.panel.rx)) =
      some ([0x3F], some (.write 1 ⟨0x00, 0xA8⟩ .acknowledged), .param .muxratio []) := by decide

theorem test_dispoffset :
    after (exec (.dispoffset 0x00) (initing [.ok, .ok])) (fun t => (t.cmdRest, t.trace.getLast?, t.panel.rx)) =
      some ([0x00], some (.write 1 ⟨0x00, 0xD3⟩ .acknowledged), .param .dispoffset []) := by decide

theorem test_chargepump :
    after (exec (.chargepump 0x14) (initing [.ok, .ok])) (fun t => (t.cmdRest, t.trace.getLast?, t.panel.rx)) =
      some ([0x14], some (.write 1 ⟨0x00, 0x8D⟩ .acknowledged), .param .chargepump []) := by decide

theorem test_memmode :
    after (exec (.memmode 0x00) (initing [.ok, .ok])) (fun t => (t.cmdRest, t.trace.getLast?, t.panel.rx)) =
      some ([0x00], some (.write 1 ⟨0x00, 0x20⟩ .acknowledged), .param .memmode []) := by decide

theorem test_compins :
    after (exec (.compins 0x12) (initing [.ok, .ok])) (fun t => (t.cmdRest, t.trace.getLast?, t.panel.rx)) =
      some ([0x12], some (.write 1 ⟨0x00, 0xDA⟩ .acknowledged), .param .compins []) := by decide

theorem test_contrast :
    after (exec (.contrast 0xCF) (initing [.ok, .ok])) (fun t => (t.cmdRest, t.trace.getLast?, t.panel.rx)) =
      some ([0xCF], some (.write 1 ⟨0x00, 0x81⟩ .acknowledged), .param .contrast []) := by decide

theorem test_precharge :
    after (exec (.precharge 0xF1) (initing [.ok, .ok])) (fun t => (t.cmdRest, t.trace.getLast?, t.panel.rx)) =
      some ([0xF1], some (.write 1 ⟨0x00, 0xD9⟩ .acknowledged), .param .precharge []) := by decide

theorem test_vcomdesel :
    after (exec (.vcomdesel 0x40) (initing [.ok, .ok])) (fun t => (t.cmdRest, t.trace.getLast?, t.panel.rx)) =
      some ([0x40], some (.write 1 ⟨0x00, 0xDB⟩ .acknowledged), .param .vcomdesel []) := by decide

theorem test_coladdr :
    after (exec (.coladdr 0x00 0x7F) (updating blank [.ok])) (fun t => (t.cmdRest, t.trace.getLast?, t.panel.rx)) =
      some ([0x00, 0x7F], some (.write 1 ⟨0x00, 0x21⟩ .acknowledged), .param .coladdr []) := by decide

theorem test_pageaddr :
    after (exec (.pageaddr 0x00 0x07) (updating blank [.ok])) (fun t => (t.cmdRest, t.trace.getLast?, t.panel.rx)) =
      some ([0x00, 0x07], some (.write 1 ⟨0x00, 0x22⟩ .acknowledged), .param .pageaddr []) := by decide

theorem test_data_steps_column :
    after (exec (.data 0x81) (updating blank [.ok])) (fun t => (t.ramByte 0, t.panel.cfg.col, t.col, t.seq)) =
      some (some 0x81, 1, 1, 1) := by decide

/-- R125: after the last column the next page's first. -/
theorem test_data_wraps_page :
    after (exec (.data 0x81) { updating blank [.ok] with
        col := 127
        pg := 1
        panel := { panel0 with cfg := { panel0.cfg with col := 127, page := 1 } } })
      (fun t => (t.ramByte 255, t.panel.cfg.col, t.panel.cfg.page, t.col, t.pg)) =
      some (some 0x81, 0, 2, 0, 2) := by decide

/-! ### Steps of an operation -/

/-- 95_test_vectors P5 step 1. -/
theorem test_open_fails :
    after (step (opening [.fail false])) (fun t => (t.st, t.hnd, t.res, t.busy)) =
      some (.uninitialized, .unopened, .deviceInitError .transportOpenError, false) := by decide

/-- 95_test_vectors P2 step 1. -/
theorem test_abort_of_initialize :
    after (step { initing [.ok] with seq := 5, raised := some ⟨0x00, 0xD3⟩ })
      (fun t => (t.st, t.hnd, t.res, t.trace.getLast?)) =
      some (.uninitialized, .unopened, .deviceInitError (.transportWriteError 5 ⟨0x00, 0xD3⟩), some (.closed 1 true)) := by decide

/-- 95_test_vectors P3 step 3. -/
theorem test_abort_of_update :
    after (step { updating full [] with seq := 306, raised := some ⟨0x40, 0xFF⟩ })
      (fun t => (t.st, t.hnd, t.res, t.trace.length)) =
      some (.ready, .opened 1, .transportWriteError 306 ⟨0x40, 0xFF⟩, 1) := by decide

/-- R175: an applied opcode of a `CMD2` command, reported failed. -/
theorem test_cut_command_loses_panel :
    after (exec (.sendCmd 0x8D [0x14]) (initing [.fail true])) (fun t => t.panel.rx) = some .lost := by decide

/-- R160. -/
theorem test_timeout_raises :
    after (exec .dispoff { initing [.silent false] with par := { Params.default with writeTimeout := some 9 } })
      (fun t => (t.raised, t.hung)) = some (some ⟨0x00, 0xAE⟩, false) := by decide

/-- R167. -/
theorem test_reset_event_keeps_ram :
    (coreReset { updating full [] with panel := { panel0 with ram := [(3, 0xFF)] } }).panel.ram = [(3, 0xFF)] := by decide

/-! ### For every obligation with hypotheses, states and operands that meet them -/

theorem idle_inv : idle.Inv where
  ram := rfl
  idle := fun _ => ⟨rfl, rfl, rfl, rfl, rfl, rfl, rfl⟩
  handle := by simp [idle, State.reset]
  opening := fun h => by cases h
  initPb := fun h => by cases h
  update := fun h => by cases h
  oneEnd := fun _ => rfl
  seqBound := by decide
  program := fun h => absurd rfl h
  boundary := fun _ h => absurd rfl h

theorem initing_inv (as : List Answer) : (initing as).Inv where
  ram := rfl
  idle := fun h => by cases h
  handle := by simp [initing]
  opening := fun _ h => by cases h
  initPb := fun _ => rfl
  update := fun h => by cases h
  oneEnd := fun _ => rfl
  seqBound := Nat.zero_le _
  program := fun _ => ⟨rfl, Nat.zero_le _⟩
  boundary := fun _ _ => rfl

theorem hanging_inv : hanging.Inv where
  ram := rfl
  idle := fun h => by cases h
  handle := by simp [hanging, initing]
  opening := fun _ h => by cases h
  initPb := fun _ => rfl
  update := fun h => by cases h
  oneEnd := fun h => absurd rfl h
  seqBound := by decide
  program := fun _ => ⟨rfl, by decide⟩
  boundary := fun _ _ => by decide

theorem updating_inv (as : List Answer) : (updating (dot 5 10) as).Inv where
  ram := rfl
  idle := fun h => by cases h
  handle := by simp [updating, ready]
  opening := fun _ h => by cases h
  initPb := fun h => by cases h
  update := fun _ => ⟨rfl, dot 5 10, rfl, by decide, .inl rfl⟩
  oneEnd := fun _ => rfl
  seqBound := Nat.zero_le _
  program := fun _ => ⟨rfl, Nat.zero_le _⟩
  boundary := fun _ _ => rfl

theorem test_witness_StepKeepsInvariant :
    ((initing [.ok]).Inv ∧ ∃ t, step (initing [.ok]) = .next t) ∧
    ((updating (dot 5 10) [.ok]).Inv ∧ ∃ t, step (updating (dot 5 10) [.ok]) = .next t) ∧
    (idle.Inv ∧ ∃ t, step idle = .next t) := 
  ⟨⟨initing_inv _, _, rfl⟩, ⟨updating_inv _, _, rfl⟩, ⟨idle_inv, _, rfl⟩⟩

theorem test_witness_ProgressUnlessUnanswered :
    ((initing []).Inv ∧ (initing []).hung = false) ∧ (hanging.Inv ∧ hanging.hung = true) := 
  ⟨⟨initing_inv _, rfl⟩, hanging_inv, rfl⟩

theorem test_witness_OneTransportCallPerStep :
    (∃ t, step (initing [.ok]) = .next t ∧ t.trace ≠ (initing [.ok]).trace) ∧
    ∃ t, step idle = .next t ∧ t.trace = idle.trace := 
  ⟨⟨_, rfl, by decide⟩, _, rfl, rfl⟩

theorem test_witness_WritesInProgramOrder :
    ((initing [.ok]).Inv ∧ ∃ t, step (initing [.ok]) = .next t ∧
      t.trace = (initing [.ok]).trace ++ [.write 1 ⟨0x00, 0xAE⟩ .acknowledged]) ∧
    ((initing [.fail true]).Inv ∧ ∃ t, step (initing [.fail true]) = .next t ∧
      t.trace = (initing [.fail true]).trace ++ [.write 1 ⟨0x00, 0xAE⟩ .failed]) := 
  ⟨⟨initing_inv _, _, rfl, rfl⟩, initing_inv _, _, rfl, rfl⟩

theorem test_witness_SequencePointerSteps :
    (∃ t, step (initing [.ok]) = .next t ∧ (initing [.ok]).busy = true ∧ t.busy = true ∧ t.seq = 1) ∧
    (∃ t, step (opening [.ok]) = .next t ∧ (opening [.ok]).busy = true ∧ t.busy = true ∧ t.opk = .init) ∧
    (∃ s t : State, step s = .next t ∧ s.busy = false ∧ t.busy = true ∧ t.opk = .update) ∧
    ∃ s t : State, step s = .next t ∧ s.busy = false ∧ t.busy = true ∧ t.opk = .none := 
  ⟨⟨_, rfl, rfl, rfl, rfl⟩, ⟨_, rfl, rfl, rfl, rfl⟩,
    ⟨{ ready [] with reqs := [⟨0b010, full⟩] }, _, rfl, rfl, rfl, rfl⟩,
    { idle with reqs := [⟨0b001, zeroSurface⟩] }, _, rfl, rfl, rfl, rfl⟩

theorem test_witness_ParametersNeverChange : ∃ t, step (initing [.ok]) = .next t := ⟨_, rfl⟩

theorem test_witness_HandlesArePaired :
    (initing [.ok]).Inv ∧ (initing [.ok]).handlesPaired ∧ ∃ t, step (initing [.ok]) = .next t := 
  ⟨initing_inv _, rfl, _, rfl⟩

theorem test_witness_TraceStaysInRepertoire :
    ((initing [.ok]).Inv ∧ (initing [.ok]).traceInRepertoire ∧ ∃ t, step (initing [.ok]) = .next t) ∧
    inRepertoire OpTable.default ⟨0x00, 0xAE⟩ ∧ inRepertoire OpTable.default ⟨0x00, 0x07⟩ ∧
    inRepertoire OpTable.default ⟨0x40, 0x99⟩ := by
  refine ⟨⟨initing_inv _, ?_, _, rfl⟩, .inl (by decide), .inr (.inl (by decide)), .inr (.inr rfl)⟩
  intro h x w hm
  simp [initing] at hm

theorem test_witness_OpenErrorNeverBare :
    (opening [.fail true]).res ≠ .transportOpenError ∧
    (∀ r ∈ (opening [.fail true]).replies, r.result ≠ .transportOpenError) ∧
    ∃ t, step (opening [.fail true]) = .next t := 
  ⟨by decide, by decide, _, rfl⟩

theorem test_witness_OneResultPerOperation :
    (∃ t, step (opening [.fail true]) = .next t ∧ (opening [.fail true]).busy = true ∧ t.busy = false) ∧
    ∃ t, step (initing [.ok]) = .next t ∧ t.busy = true := 
  ⟨⟨_, rfl, rfl, rfl⟩, _, rfl, rfl⟩

theorem test_witness_DecodeEncodeRoundTrip :
    (OpTable.default.distinct = true ∧ encode OpTable.default (.coladdr 0x00 0xFF) =
      .wire [⟨0x00, 0x21⟩, ⟨0x00, 0x00⟩, ⟨0x00, 0xFF⟩]) ∧
    OpTable.default.host.distinct = true ∧ encode OpTable.default (.update (dot 1 2)) = .host ⟨0b010, dot 1 2⟩ := by decide

theorem test_witness_EncodeDecodeInverse :
    decodeWire OpTable.default [⟨0x00, 0x81⟩, ⟨0x00, 0xFF⟩, ⟨0x40, 0x01⟩] =
      .ok (.contrast 0xFF) [⟨0x40, 0x01⟩] := by decide

theorem test_witness_ReservedHostCodesIgnored :
    ∀ c ∈ ([0b000, 0b110, 0b111] : List (BitVec 3)), ∃ s : State, s.busy = false ∧ s.hung = false ∧
      s.reqs = [⟨c, zeroSurface⟩] ∧ decodeHost s.par.ops.host ⟨c, zeroSurface⟩ = none := by
  intro c hc
  refine ⟨{ idle with reqs := [⟨c, zeroSurface⟩] }, rfl, rfl, rfl, ?_⟩
  revert c
  decide

theorem test_witness_StepRunsDecodedInstruction :
    (∃ s : State, s.busy = false ∧ s.hung = false ∧ s.reqs = [⟨0b011, zeroSurface⟩] ∧
      decodeHost HostCodes.default ⟨0b011, zeroSurface⟩ = some .dispose) ∧
    ((initing []).sending 1 ∧ ∃ rest, decodeWire (initing []).par.ops (initing []).queue = .ok .dispoff rest) ∧
    ∃ s : State, s.sending 1 ∧ s.queue = [⟨0x00, 0xE3⟩] ∧
      decodeWire s.par.ops s.queue = .reject (.unknownOpcode 0xE3) := 
  ⟨⟨{ idle with reqs := [⟨0b011, zeroSurface⟩] }, rfl, rfl, rfl, rfl⟩,
    ⟨⟨rfl, rfl, rfl, by decide, rfl, rfl⟩, _, rfl⟩,
    { initing [] with queue := [⟨0x00, 0xE3⟩] }, ⟨rfl, rfl, rfl, (fun h => by cases h), rfl, rfl⟩, rfl, by decide⟩

/-- Every answer, so each of the two clauses. -/
theorem test_witness_StepResumesCommand :
    ∀ a : Answer, ∃ s : State, s.busy = true ∧ s.hung = false ∧ s.raised = none ∧ s.opk ≠ .none ∧
      s.hnd = .opened 1 ∧ s.cmdRest = [0x80] ∧ s.answer = a := 
  fun a => ⟨{ initing [a] with cmdRest := [0x80] }, rfl, rfl, rfl, (fun h => by cases h), rfl, rfl, rfl⟩

/-- Every answer, so each of the three clauses. -/
theorem test_witness_OpenStep :
    ∀ a : Answer, (opening [a]).busy = true ∧ (opening [a]).hung = false ∧ (opening [a]).raised = none ∧
      (opening [a]).opk = .none ∧ (opening [a]).hnd = .unopened ∧ (opening [a]).answer = a := 
  fun _ => ⟨rfl, rfl, rfl, rfl, rfl, rfl⟩

theorem test_witness_EncodeStep :
    ∃ s : State, s.busy = true ∧ s.hung = false ∧ s.raised = none ∧ s.opk = .update ∧ s.cmdRest = [] ∧
      s.queue = [] ∧ s.pb = none ∧ s.surf = some (dot 5 10) ∧ panelSized (dot 5 10) = true := 
  ⟨{ updating (dot 5 10) [] with queue := [], seq := 6 }, rfl, rfl, rfl, rfl, rfl, rfl, rfl, rfl, by decide⟩

theorem test_witness_CompleteStep :
    (∃ s : State, s.busy = true ∧ s.hung = false ∧ s.raised = none ∧ s.cmdRest = [] ∧ s.queue = [] ∧
      s.opk = .init) ∧
    ∃ s : State, s.busy = true ∧ s.hung = false ∧ s.raised = none ∧ s.cmdRest = [] ∧ s.queue = [] ∧
      s.opk = .update ∧ s.pb ≠ none := 
  ⟨⟨{ initing [] with queue := [], seq := 26 }, rfl, rfl, rfl, rfl, rfl, rfl⟩,
    ⟨{ updating full [] with queue := [], pb := some [] }, rfl, rfl, rfl, rfl, rfl, rfl, by simp⟩⟩

theorem test_witness_AbortPath :
    (∃ s : State, s.busy = true ∧ s.hung = false ∧ s.raised = some ⟨0x00, 0xD3⟩ ∧ s.opk = .init ∧
      s.hnd = .opened 1) ∧
    (∃ s : State, s.busy = true ∧ s.hung = false ∧ s.raised = some ⟨0x40, 0xFF⟩ ∧ s.opk = .update) ∧
    ((opening [.fail true]).busy = true ∧ (opening [.fail true]).hung = false ∧
      (opening [.fail true]).raised = none ∧ (opening [.fail true]).opk = .none ∧
      (opening [.fail true]).hnd = .unopened ∧ (opening [.fail true]).answer = .fail true) := 
  ⟨⟨{ initing [] with raised := some ⟨0x00, 0xD3⟩ }, rfl, rfl, rfl, rfl, rfl⟩,
    ⟨{ updating full [] with raised := some ⟨0x40, 0xFF⟩ }, rfl, rfl, rfl, rfl⟩, rfl, rfl, rfl, rfl, rfl, rfl⟩

/-- An opcode, a parameter and a data byte, with and without a timeout. -/
theorem test_witness_UnansweredWriteHangs :
    ∀ x, (x = ⟨0x00, 0xAE⟩ ∨ x = ⟨0x00, 0x80⟩ ∨ x = ⟨0x40, 0xFF⟩) → ∀ lim : Option Nat, ∃ s : State, ∃ xs,
      s.busy = true ∧ s.hung = false ∧ s.raised = none ∧ s.opk ≠ .none ∧ s.hnd = .opened 1 ∧
      s.unsent = x :: xs ∧ s.answer = .silent true ∧ s.par.writeTimeout = lim := by
  intro x h lim
  rcases h with rfl | rfl | rfl
  · exact ⟨{ initing [.silent true] with par := { Params.default with writeTimeout := lim } }, _,
      rfl, rfl, rfl, (fun h => by cases h), rfl, rfl, rfl, rfl⟩
  · exact ⟨{ initing [.silent true] with
      cmdRest := [0x80], queue := [], par := { Params.default with writeTimeout := lim } }, _,
      rfl, rfl, rfl, (fun h => by cases h), rfl, rfl, rfl, rfl⟩
  · exact ⟨{ updating full [.silent true] with
      queue := [⟨0x40, 0xFF⟩], par := { Params.default with writeTimeout := lim } }, _,
      rfl, rfl, rfl, (fun h => by cases h), rfl, rfl, rfl, rfl⟩

/-- PackSetsRowBits, EncodePacksEveryPixel, EncodeFrame, EncodeAlways1024Bytes, PseudoInstructionsExpand. -/
theorem test_witness_panelSized :
    panelSized blank = true ∧ panelSized full = true ∧ panelSized (dot 127 63) = true := by decide

/-- The first and the last pixel. -/
theorem test_witness_EncodePacksEveryPixel :
    panelSized (dot 127 63) = true ∧ (0 < 128 ∧ 0 < 64) ∧ (127 < 128 ∧ 63 < 64) := by decide

theorem test_witness_EncodeUniformSurfaces :
    panelSized blank = true ∧ panelSized full = true ∧
    (∀ x y, x < 128 → y < 64 → ink (readPixel blank x y) = false) ∧
    (∀ x y, x < 128 → y < 64 → ink (readPixel full x y) = true) := 
  ⟨by decide, by decide, fun _ _ _ _ => rfl, fun _ _ _ _ => rfl⟩

/-- The three examples of R114 and the last pixel. -/
theorem test_witness_EncodeSinglePixel :
    ∀ x y, (x, y) ∈ [(0, 0), (0, 7), (1, 0), (127, 63)] → panelSized (dot x y) = true ∧ x < 128 ∧ y < 64 ∧
      ∀ x' y', x' < 128 → y' < 64 → (ink (readPixel (dot x y) x' y') = true ↔ x' = x ∧ y' = y) := by
  intro x y h
  have hxy : x < 128 ∧ y < 64 := by
    simp only [List.mem_cons, Prod.mk.injEq, List.not_mem_nil, or_false] at h
    omega
  refine ⟨rfl, hxy.1, hxy.2, fun x' y' _ _ => ?_⟩
  by_cases e : (x, y) = (x', y')
  · simp only [Prod.mk.injEq] at e
    simp [readPixel, dot, lookupPixel, e, ink, intensityValue]
  · simp only [Prod.mk.injEq] at e
    simp [readPixel, dot, lookupPixel, e, ink, intensityValue]
    omega

/-- Two different surfaces of the same classes. -/
theorem test_witness_EncodeDependsOnPixelsOnly :
    blank ≠ ⟨128, 64, .ratio 1 1, []⟩ ∧ panelSized blank = true ∧ panelSized ⟨128, 64, .ratio 1 1, []⟩ = true ∧
    ∀ x y, x < 128 → y < 64 →
      ink (readPixel blank x y) = ink (readPixel ⟨128, 64, .ratio 1 1, []⟩ x y) := 
  ⟨by decide, by decide, by decide, fun _ _ _ _ => rfl⟩

/-- The first and the last bit. -/
theorem test_witness_PixelMapIsBijection :
    (0 < 1024 ∧ 0 < 8) ∧ (1023 < 1024 ∧ 7 < 8) ∧ panelSized blank = true := by decide

theorem test_witness_UnreachableFormsStopByName :
    idle.hnd = .unopened ∧ idle.pb = none ∧ panelSized ⟨64, 128, .nan, []⟩ = false := 
  ⟨rfl, rfl, by decide⟩

/-- Every answer, so each clause. -/
theorem test_witness_TOpenAnswers : ∀ a : Answer, (opening [a]).answer = a := fun _ => rfl

/-- Every answer, with and without a timeout, so each clause. -/
theorem test_witness_TWriteAnswers :
    ∀ a : Answer, (ready [a]).hnd = .opened 1 ∧ (ready [a]).answer = a ∧ (ready [a]).par.writeTimeout = none ∧
      ∃ s : State, s.hnd = .opened 1 ∧ s.answer = a ∧ s.par.writeTimeout = some 9 := 
  fun a => ⟨rfl, rfl, rfl,
    { ready [a] with par := { Params.default with writeTimeout := some 9 } }, rfl, rfl, rfl⟩

theorem test_witness_TCloseNeverFails :
    idle.hnd = .unopened ∧ ∀ a : Answer, (ready [a]).hnd = .opened 1 ∧ (ready [a]).answer = a := 
  ⟨rfl, fun _ => ⟨rfl, rfl⟩⟩

/-- Every entry of the list is an instance. -/
theorem test_witness_OneByteCommandsComplete :
    oneByteCommands.length = 10 ∧ (initing [.ok]).hnd = .opened 1 ∧ (initing [.ok]).panelReady ∧
    (initing [.ok]).answer = .ok := 
  ⟨rfl, rfl, ⟨rfl, OpTable.default_distinct⟩, rfl⟩

theorem test_witness_TwoByteCommandsComplete :
    (twoByteCommands 0xFF).length = 9 ∧ (initing [.ok, .ok]).sending 1 ∧ (initing [.ok, .ok]).panelReady ∧
    (initing [.ok, .ok]).script = .ok :: .ok :: [] := 
  ⟨rfl, ⟨rfl, rfl, rfl, by decide, rfl, rfl⟩, ⟨rfl, OpTable.default_distinct⟩, rfl⟩

theorem test_witness_ThreeByteCommandsComplete :
    threeByteCommands.length = 2 ∧ (updating full [.ok, .ok, .ok]).sending 1 ∧
    (updating full [.ok, .ok, .ok]).panelReady ∧
    (updating full [.ok, .ok, .ok]).script = .ok :: .ok :: .ok :: [] := 
  ⟨rfl, ⟨rfl, rfl, rfl, by decide, rfl, rfl⟩, ⟨rfl, OpTable.default_distinct⟩, rfl⟩

/-- Every entry of the list is an instance of the second clause. -/
theorem test_witness_SendCmdSendsEveryByte :
    (initing [.ok, .ok, .ok]).sending 1 ∧
    (initing [.ok, .ok, .ok]).script = List.replicate (([0x00, 0x7F] : List Byte).length + 1) .ok ++ [] ∧
    embeddedOperands.length = 76 ∧ (initing [.ok]).hnd = .opened 1 ∧ (initing [.ok]).panel.rx = .boundary ∧
    (initing [.ok]).par.ops = OpTable.default ∧ (initing [.ok]).answer = .ok := 
  ⟨⟨rfl, rfl, rfl, by decide, rfl, rfl⟩, rfl, rfl, rfl, rfl, rfl, rfl⟩

theorem test_witness_CommandWriteFailureIsRaised :
    encode OpTable.default (.contrast 0xCF) = .wire (commandXacts 0x81 [0xCF]) ∧
    (initing [.fail true]).hnd = .opened 1 ∧ (initing [.fail true]).answer = .fail true ∧
    (initing [.fail true]).panel.rx = .boundary ∧ (initing [.fail true]).par.ops.find 0x81 ≠ none := 
  ⟨rfl, rfl, rfl, rfl, by decide⟩

/-- A state for each clause. -/
theorem test_witness_CutCommandLosesPanel :
    ({ panel0 with rx := .param .coladdr [0x00] } : Panel).rx = .param .coladdr [0x00] ∧
    panel0.rx = .boundary ∧ OpTable.default.named 0x8D = [.chargepump] ∧ 0 < Cmd.arity .chargepump ∧
    OpTable.default.named 0xAE = [.dispoff] ∧ Cmd.arity .dispoff = 0 ∧
    OpTable.default.named 0x21 = [.coladdr] ∧ (Panel.garble 0).rx = .lost := 
  ⟨rfl, rfl, by decide, by decide, by decide, rfl, by decide, rfl⟩

/-- Inside a row, at a row's end, and at the window's last position. -/
theorem test_witness_DataWriteStoresAtPosition :
    ∀ c : PanelCfg, (c = panel0.cfg ∨ c = { panel0.cfg with col := 127 } ∨
      c = { panel0.cfg with col := 127, page := 7 }) → ∃ s : State, s.panel.cfg = c ∧ s.hnd = .opened 1 ∧
      s.panel.rx = .boundary ∧ s.panel.cfg.memMode = 0x00 ∧ s.answer = .ok := by
  intro c hc
  refine ⟨{ updating full [.ok] with panel := { panel0 with cfg := c } }, rfl, rfl, rfl, ?_, rfl⟩
  rcases hc with rfl | rfl | rfl <;> rfl

theorem test_witness_DataWriteFailure :
    ∀ a : Bool, (updating full [.fail a]).hnd = .opened 1 ∧ (updating full [.fail a]).panel.rx = .boundary ∧
      (updating full [.fail a]).panel.cfg.memMode = 0x00 ∧ (updating full [.fail a]).answer = .fail a := 
  fun _ => ⟨rfl, rfl, rfl, rfl⟩

theorem test_witness_PseudoInstructionsExpand :
    ({ idle with pb := some [(0, 0x0A)] } : State).pb = some [(0, 0x0A)] ∧ panelSized blank = true := 
  ⟨rfl, by decide⟩

theorem test_witness_InitializeIsAccepted :
    (closed.busy = false ∧ closed.st = .closed ∧ closed.par.initFromClosed = .reject) ∧
    (idle.busy = false ∧ idle.st ≠ .closed ∧ idle.hnd = .unopened) ∧
    ((ready []).busy = false ∧ (ready []).st ≠ .closed ∧ (ready []).hnd ≠ .unopened) ∧
    ∃ s : State, s.busy = false ∧ s.st = .closed ∧ s.par.initFromClosed = .reopen := 
  ⟨⟨rfl, rfl, rfl⟩, ⟨rfl, by decide, rfl⟩, ⟨rfl, by decide, by decide⟩,
    { closed with par := { Params.default with initFromClosed := .reopen } }, rfl, rfl, rfl⟩

theorem test_witness_UpdateIsChecked :
    (idle.busy = false ∧ idle.st ≠ .ready) ∧
    ((ready []).busy = false ∧ (ready []).st = .ready ∧ ¬ ((⟨128, 63, .nan, []⟩ : Surface).width = 128 ∧
      (⟨128, 63, .nan, []⟩ : Surface).height = 64)) ∧
    ((ready []).busy = false ∧ (ready []).st = .ready ∧ full.width = 128 ∧ full.height = 64) := 
  ⟨⟨rfl, by decide⟩, ⟨rfl, rfl, by decide⟩, rfl, rfl, rfl, rfl⟩

theorem test_witness_DisposeClosesOnce :
    (idle.busy = false ∧ idle.hnd = .unopened) ∧ ((ready []).busy = false ∧ (ready []).hnd = .opened 1) := 
  ⟨⟨rfl, rfl⟩, rfl, rfl⟩

theorem test_witness_OverlappingOperationRefused :
    (initing [.ok]).busy = true ∧ ∃ t, step (initing [.ok]) = .next t := ⟨rfl, _, rfl⟩

theorem test_witness_ResetEventKeepsPanel :
    (∀ k got, idle.panel.rx ≠ .param k got) ∧
    ({ idle with panel := { panel0 with rx := .param .coladdr [] } } : State).panel.rx = .param .coladdr [] := 
  ⟨fun _ _ h => (by cases h), rfl⟩

theorem test_witness_InitializeRunsToReady :
    ∃ s : State, s.sending 1 ∧ s.opk = .init ∧ s.seq = 0 ∧ s.queue = initStream s.par.ops ∧ s.panelReady ∧
      s.script = List.replicate 26 .ok ++ [] := 
  ⟨initing (List.replicate 26 .ok ++ []), ⟨rfl, rfl, rfl, by decide, rfl, rfl⟩, rfl, rfl, rfl,
    ⟨rfl, OpTable.default_distinct⟩, rfl⟩

/-- The first and the last write. -/
theorem test_witness_InitializeAbortIsPrecise :
    ∀ f x, (f = 0 ∧ x = ⟨0x00, 0xAE⟩) ∨ (f = 25 ∧ x = ⟨0x00, 0xAF⟩) → ∃ s : State, s.sending 1 ∧
      s.opk = .init ∧ s.seq = 0 ∧ s.queue = initStream s.par.ops ∧
      (initStream s.par.ops)[f]? = some x ∧ s.script = List.replicate f .ok ++ .fail true :: .ok :: [] := by
  intro f x h
  refine ⟨initing (List.replicate f .ok ++ .fail true :: .ok :: []), ⟨rfl, rfl, rfl, by simp [initing], rfl, rfl⟩,
    rfl, rfl, rfl, ?_, rfl⟩
  rcases h with ⟨rfl, rfl⟩ | ⟨rfl, rfl⟩ <;> rfl

theorem test_witness_UpdateShowsTheSurface :
    ∃ s : State, s.sending 1 ∧ s.opk = .update ∧ s.seq = 0 ∧ s.queue = windowStream s.par.ops ∧ s.pb = none ∧
      s.surf = some (dot 127 63) ∧ panelSized (dot 127 63) = true ∧ s.panelReady ∧
      s.panel.cfg.memMode = 0x00 ∧ s.script = List.replicate 1030 .ok ++ [] := 
  ⟨updating (dot 127 63) (List.replicate 1030 .ok ++ []), ⟨rfl, rfl, rfl, (fun h => by cases h), rfl, rfl⟩, rfl, rfl,
    rfl, rfl, rfl, rfl, ⟨rfl, OpTable.default_distinct⟩, rfl, rfl⟩

/-- The first and the last data byte, and the example of 95_test_vectors P3. -/
theorem test_witness_TornFrameIsPrecise :
    ∀ k, k = 0 ∨ k = 300 ∨ k = 1023 → ∃ s : State, s.sending 1 ∧ s.opk = .update ∧ s.seq = 0 ∧
      s.queue = windowStream s.par.ops ∧ s.pb = none ∧ s.surf = some full ∧ panelSized full = true ∧
      s.panelReady ∧ s.panel.cfg.memMode = 0x00 ∧ k < 1024 ∧
      s.script = List.replicate (6 + k) .ok ++ .fail true :: [] := by
  intro k h
  refine ⟨updating full (List.replicate (6 + k) .ok ++ .fail true :: []),
    ⟨rfl, rfl, rfl, (fun h => by cases h), rfl, rfl⟩, rfl, rfl, rfl, rfl, rfl, rfl,
    ⟨rfl, OpTable.default_distinct⟩, rfl, ?_, rfl⟩
  omega

/-- The first and the last window write. -/
theorem test_witness_WindowAbortIsPrecise :
    ∀ f x, (f = 0 ∧ x = ⟨0x00, 0x21⟩) ∨ (f = 5 ∧ x = ⟨0x00, 0x07⟩) → ∃ s : State, s.sending 1 ∧
      s.opk = .update ∧ s.seq = 0 ∧ s.queue = windowStream s.par.ops ∧ s.pb = none ∧ s.surf = some full ∧
      panelSized full = true ∧ (windowStream s.par.ops)[f]? = some x ∧
      s.script = List.replicate f .ok ++ .fail true :: [] ∧ s.panelReady := by
  intro f x h
  refine ⟨updating full (List.replicate f .ok ++ .fail true :: []),
    ⟨rfl, rfl, rfl, (fun h => by cases h), rfl, rfl⟩, rfl, rfl, rfl, rfl, rfl, rfl, ?_, rfl,
    ⟨rfl, OpTable.default_distinct⟩⟩
  rcases h with ⟨rfl, rfl⟩ | ⟨rfl, rfl⟩ <;> rfl

theorem test_witness_LitSegmentsFollowRam :
    (panel0.rx ≠ .lost ∧ panel0.cfg.displayOn = false) ∧ (∀ inv : Bool, ∃ p : Panel, p.rx ≠ .lost ∧
      p.cfg.inverted = inv ∧ p.cfg.displayOn = true ∧ p.cfg.ramDisplay = true ∧ p.cfg.chargePump = 0x14 ∧
      p.cfg.scrolling = false ∧ Memory.read p.ram (0 * 128 + 5) = some 0x04) ∧ ∃ p : Panel, p.rx ≠ .lost ∧
      p.cfg.displayOn = true ∧ p.cfg.ramDisplay = false ∧ p.cfg.chargePump = 0x14 ∧ p.cfg.inverted = false := 
  ⟨⟨by decide, rfl⟩, fun inv => ⟨{ panel0 with
      cfg := { panel0.cfg with displayOn := true, ramDisplay := true, chargePump := 0x14, inverted := inv }
      ram := [(5, 0x04)] }, by simp [panel0], rfl, rfl, rfl, rfl, rfl, rfl⟩, { panel0 with
      cfg := { panel0.cfg with displayOn := true, chargePump := 0x14 } }, by simp [panel0], rfl, rfl, rfl, rfl⟩

end Sys2Proof.Tests
end

section
/-! What one step does to the history of Transport calls and to the build's parameters (00_scope R7, R8),
part by part: the open step, the host operations, the complete step and the abort path, and then
`step_cases` puts them together. -/

namespace Sys2Proof.Machine

/-- From `s` to `t` at most one Transport call was made (00_scope R7). -/
def AtMostOneCall (s t : State) : Prop :=
  t.trace = s.trace ∨ ∃ c, t.trace = s.trace ++ [c]

/-! ### What handles the Transport's answer makes no call and keeps the parameters -/

@[simp] theorem afterOpen_trace (t : State) : (afterOpen t).trace = t.trace := by
  unfold afterOpen
  split <;> rfl

@[simp] theorem afterOpen_par (t : State) : (afterOpen t).par = t.par := by
  unfold afterOpen
  split <;> rfl

@[simp] theorem completeOperation_trace (s : State) : (completeOperation s).trace = s.trace := by
  unfold completeOperation
  split <;> rfl

@[simp] theorem completeOperation_par (s : State) : (completeOperation s).par = s.par := by
  unfold completeOperation
  split <;> rfl

/-! ### The parts of a step that call the Transport call it once -/

theorem atMostOneCall_transportOpen (addr : BitVec 7) (s : State) :
    AtMostOneCall s (transportOpen addr s) := by
  rcases transportOpen_cases addr s with ⟨-, hopened, -⟩ | ⟨-, hfailed, -⟩ | ⟨-, hunanswered, -⟩
  · exact .inr ⟨_, hopened⟩
  · exact .inr ⟨_, hfailed⟩
  · exact .inr ⟨_, hunanswered⟩

theorem atMostOneCall_releaseHandle (s : State) : AtMostOneCall s (releaseHandle s) := by
  rcases releaseHandle_cases s with ⟨-, hkept⟩ | ⟨_, _, -, hclosed⟩
  · exact .inl hkept
  · exact .inr ⟨_, hclosed⟩

/-- Of the host operations only DISPOSE with an open handle calls the Transport in its own step. -/
theorem atMostOneCall_hostOp {i : Instr} {s t : State} (hi : isHostOp i = true)
    (h : exec i s = .next t) (hb : s.busy = false) : AtMostOneCall s t := by
  rcases exec_host_cases hi h hb with ⟨_, _, rfl, -⟩ | ⟨rfl, -⟩ | ⟨rfl, -⟩ | ⟨_, rfl, -⟩ | ⟨rfl, -⟩ |
    ⟨rfl, -⟩ | ⟨_, _, rfl⟩
  case inr.inr.inr.inr.inr.inl => exact atMostOneCall_releaseHandle s
  all_goals exact .inl rfl

theorem atMostOneCall_abortOperation {x : Xact} {s t : State} (h : abortOperation x s = .next t) :
    AtMostOneCall s t := by
  rcases abortOperation_cases x s with ⟨-, he⟩ | ⟨-, he⟩ | ⟨-, he⟩ <;> rw [he] at h <;> cases h
  · exact atMostOneCall_releaseHandle s
  · exact .inl rfl

/-! ### The parts of a step keep the parameters -/

theorem exec_hostOp_par {i : Instr} {s t : State} (hi : isHostOp i = true)
    (h : exec i s = .next t) (hb : s.busy = false) : t.par = s.par := by
  rcases exec_host_cases hi h hb with ⟨_, _, rfl, -⟩ | ⟨rfl, -⟩ | ⟨rfl, -⟩ | ⟨_, rfl, -⟩ | ⟨rfl, -⟩ |
    ⟨rfl, -⟩ | ⟨_, _, rfl⟩ <;> simp

theorem abortOperation_par {x : Xact} {s t : State} (h : abortOperation x s = .next t) :
    t.par = s.par := by
  rcases abortOperation_cases x s with ⟨-, he⟩ | ⟨-, he⟩ | ⟨-, he⟩ <;> rw [he] at h <;> cases h <;> simp

/-! ### The whole step -/

theorem step_atMostOneCall {s t : State} (h : step s = .next t) : AtMostOneCall s t := by
  obtain ⟨-, hcase⟩ := step_cases h
  cases hcase with
  | idle _ he | ignore _ _ he | frame _ _ _ _ _ _ _ _ _ he => subst he; exact .inl rfl
  | complete _ _ _ _ _ _ he => subst he; exact .inl (completeOperation_trace s)
  | host hb i rest hi he => exact atMostOneCall_hostOp (s := { s with reqs := rest }) hi he hb
  | opens _ _ _ he =>
    subst he
    simpa [AtMostOneCall] using atMostOneCall_transportOpen devAddr s
  | write _ _ _ k _ x q r _ _ he =>
    obtain ⟨_, heff⟩ := write_effect k x _ t he
    exact .inr ⟨_, heff.trace⟩
  | abort _ _ _ he => exact atMostOneCall_abortOperation he

theorem step_par {s t : State} (h : step s = .next t) : t.par = s.par := by
  obtain ⟨-, hcase⟩ := step_cases h
  cases hcase with
  | idle _ he | ignore _ _ he | frame _ _ _ _ _ _ _ _ _ he => subst he; rfl
  | complete _ _ _ _ _ _ he => subst he; exact completeOperation_par s
  | host hb i rest hi he => exact exec_hostOp_par (s := { s with reqs := rest }) hi he hb
  | opens _ _ _ he => subst he; simp
  | write _ _ _ k _ x q r _ _ he =>
    obtain ⟨_, heff⟩ := write_effect k x _ t he
    exact heff.par
  | abort _ _ _ he => exact abortOperation_par he

/-- Settles O5: each of the step's cases makes no Transport call or exactly one. -/
theorem oneTransportCallPerStep : Obligations.OneTransportCallPerStep :=
  fun _ _ h => step_atMostOneCall h

/-- Settles O8: each of the step's cases keeps the parameters. -/
theorem parametersNeverChange : Obligations.ParametersNeverChange :=
  fun _ _ h => step_par h

end Sys2Proof.Machine
end

section
/-! The write programs as lists of commands (10_state R18, 41_command_table R81): how long they are, and that
the decoder, started at a command boundary, reads exactly one command (30_encoding R57, R65). -/

namespace Sys2Proof.Machine

/-- The commands a write program starts with. -/
def OpKind.commands : OpKind → List (Cmd × List Byte)
  | .none => []
  | .init => initCommands
  | .update => windowCommands

/-- How many transactions a list of commands flattens to, whatever the opcodes. -/
def xactCount (cs : List (Cmd × List Byte)) : Nat := (cs.map fun c => c.2.length + 1).sum

/-! ### Lengths -/

theorem flattenCommands_append (o : OpTable) (cs ds : List (Cmd × List Byte)) :
    flattenCommands o (cs ++ ds) = flattenCommands o cs ++ flattenCommands o ds :=
  List.flatMap_append

theorem flattenCommands_cons (o : OpTable) (c : Cmd × List Byte) (cs : List (Cmd × List Byte)) :
    flattenCommands o (c :: cs) = commandXacts (o.op c.1) c.2 ++ flattenCommands o cs :=
  List.flatMap_cons

theorem flattenCommands_length (o : OpTable) (cs : List (Cmd × List Byte)) :
    (flattenCommands o cs).length = xactCount cs := by
  simp [flattenCommands, xactCount, commandXacts, List.length_flatMap]

@[simp] theorem initStream_length (o : OpTable) : (initStream o).length = 26 :=
  flattenCommands_length o initCommands

@[simp] theorem windowStream_length (o : OpTable) : (windowStream o).length = 6 :=
  flattenCommands_length o windowCommands

@[simp] theorem frameStream_encodeBuffer_length (surf : Surface) :
    (frameStream (encodeBuffer surf)).length = 1024 := by
  simp [frameStream_encodeBuffer]

/-! ### The program of an operation in progress -/

theorem program_congr {s t : State} (hopk : t.opk = s.opk) (hpar : t.par = s.par) (hpb : t.pb = s.pb) :
    t.program = s.program := by
  simp only [State.program, hopk, hpar, hpb]

/-- The program starts with the operation's commands; only an UPDATE's frame can follow. -/
theorem program_eq_commands_append (s : State) :
    ∃ tail, s.program = flattenCommands s.par.ops s.opk.commands ++ tail := by
  unfold State.program
  split
  next ho => exact ⟨[], by rw [ho]; rfl⟩
  next ho => exact ⟨[], by rw [ho, List.append_nil]; rfl⟩
  next ho =>
    split
    next m _ => exact ⟨frameStream m, by rw [ho]; rfl⟩
    next => exact ⟨[], by rw [ho, List.append_nil]; rfl⟩

theorem program_length_le {s : State} (hs : s.Inv) : s.program.length ≤ 1030 := by
  cases ho : s.opk with
  | none => simp [State.program, ho]
  | init => simp [State.program, ho]
  | update =>
    obtain ⟨-, surf, -, -, hpb | hpb⟩ := hs.update ho <;> simp [State.program, ho, hpb]

/-! ### Decoding at a command boundary -/

/-- A command's parameters decode where their number is the opcode's (30_encoding R57). -/
theorem decodeCmd_params {c : Cmd} {ps : List Byte} (h : ps.length = c.arity) (rest : List Xact) :
    ∃ i, decodeCmd c ((ps.map fun b => ⟨ctrlCmd, b⟩) ++ rest) = .ok i rest := by
  rcases ps with _ | ⟨p, _ | ⟨q, _ | ⟨_, _⟩⟩⟩ <;> cases c <;>
    simp [Cmd.arity, decodeCmd, decodeOne, decodeTwo] at h ⊢

theorem decodeWire_commandXacts {o : OpTable} (hd : o.distinct = true) {c : Cmd} {ps : List Byte}
    (h : ps.length = c.arity) (rest : List Xact) :
    ∃ i, decodeWire o (commandXacts (o.op c) ps ++ rest) = .ok i rest := by
  simpa [commandXacts, decodeWire_op hd] using decodeCmd_params h rest

/-- After the first `j` commands of a list the decoder reads command `j`. -/
theorem decodeWire_flattenCommands {o : OpTable} (hd : o.distinct = true)
    {cs : List (Cmd × List Byte)} (hcs : ∀ c ∈ cs, c.2.length = c.1.arity) {j : Nat} (hj : j < cs.length)
    (tail : List Xact) :
    ∃ i, decodeWire o ((flattenCommands o cs ++ tail).drop (xactCount (cs.take j))) =
      .ok i (flattenCommands o (cs.drop (j + 1)) ++ tail) := by
  have hsplit : flattenCommands o cs ++ tail = flattenCommands o (cs.take j) ++
      (commandXacts (o.op cs[j].1) cs[j].2 ++ (flattenCommands o (cs.drop (j + 1)) ++ tail)) := by
    conv_lhs => rw [← List.take_append_drop j cs, List.drop_eq_getElem_cons hj]
    simp only [flattenCommands_append, flattenCommands_cons, List.append_assoc]
  rw [hsplit, List.drop_left' (flattenCommands_length o _)]
  exact decodeWire_commandXacts hd (hcs _ (List.getElem_mem hj)) _

theorem commands_arity (k : OpKind) : ∀ c ∈ k.commands, c.2.length = c.1.arity := by
  cases k <;> decide

/-- A command boundary inside the commands is the start of one of them, and its end is a boundary too. -/
theorem commandBoundary_inside (k : OpKind) :
    ∀ n < xactCount k.commands, commandBoundary k n = true →
      ∃ j < k.commands.length, xactCount (k.commands.take j) = n ∧
        commandBoundary k (xactCount (k.commands.take (j + 1))) = true := by
  cases k <;> decide

theorem commandBoundary_past (k : OpKind) {n : Nat} (h : xactCount k.commands ≤ n) :
    commandBoundary k n = true := by
  cases k with
  | none => rfl
  | init =>
    replace h : 26 ≤ n := h
    simp [commandBoundary]; omega
  | update =>
    replace h : 6 ≤ n := h
    simp [commandBoundary]; omega

theorem xactCount_take_succ {o : OpTable} {cs : List (Cmd × List Byte)} {j : Nat} (tail : List Xact) :
    xactCount (cs.take (j + 1)) + (flattenCommands o (cs.drop (j + 1)) ++ tail).length =
      (flattenCommands o cs ++ tail).length := by
  conv_rhs => rw [← List.take_append_drop (j + 1) cs, flattenCommands_append]
  simp only [List.length_append, flattenCommands_length]
  omega

/-- From command boundary to command boundary: what the decoder takes at a boundary of the program ends at
the next one (70_reset_and_hazards R175). Past the commands every position is a boundary. -/
theorem commandBoundary_next {o : OpTable} (hd : o.distinct = true) {k : OpKind} {n : Nat}
    {tail taken q : List Xact} (hb : commandBoundary k n = true)
    (hdrop : (flattenCommands o k.commands ++ tail).drop n = taken ++ q)
    (hdec : ∀ i rest,
      decodeWire o ((flattenCommands o k.commands ++ tail).drop n) = .ok i rest → rest = q) :
    commandBoundary k (n + taken.length) = true := by
  by_cases hn : n < xactCount k.commands
  · obtain ⟨j, hj, rfl, hnext⟩ := commandBoundary_inside k n hn hb
    obtain ⟨i, hi⟩ := decodeWire_flattenCommands hd (commands_arity k) hj tail
    have hq := hdec i _ hi
    have hend := xactCount_take_succ (o := o) (cs := k.commands) (j := j) tail
    have hlen := congrArg List.length hdrop
    simp only [hq, List.length_drop, List.length_append, flattenCommands_length] at hend hlen
    have hstop : xactCount (k.commands.take j) + taken.length = xactCount (k.commands.take (j + 1)) := by
      omega
    rwa [hstop]
  · exact commandBoundary_past k (by omega)

end Sys2Proof.Machine
end

section
/-! The invariant of the machine: it holds at reset, and every step keeps it, case by case of `step_cases`
(10_state R13 to R20, R32; 44_display_controller R133). -/

namespace Sys2Proof.Machine

/-! ### Consequences of the invariant -/

/-- With no failed and no unanswered write, `SEQ` entries have been given to the Transport. -/
theorem issued_eq_seq {s : State} (hh : s.hung = false) (hr : s.raised = none) : s.issued = s.seq := by
  simp [State.issued, hh, hr]

/-- An idle core's handle is open exactly in `Ready` (10_state R15). -/
theorem State.Inv.handle_idle {s : State} (hs : s.Inv) (hb : s.busy = false) :
    s.hnd ≠ .unopened ↔ s.st = .ready := by
  obtain ⟨ho, -⟩ := hs.idle hb
  simpa [ho] using hs.handle

/-! ### The invariant of an idle core -/

theorem inv_of_idle {s : State} (hram : Memory.wf s.panel.ram = true) (hb : s.busy = false)
    (hc : s.cleared) (hh : s.hnd ≠ .unopened ↔ s.st = .ready) (hq : s.seq ≤ 1030) : s.Inv := by
  obtain ⟨ho, hhung, hr, -⟩ := id hc
  exact
    { ram := hram
      idle := fun _ => hc
      handle := by simpa [ho] using hh
      opening := by simp [hb]
      initPb := by simp [ho]
      update := by simp [ho]
      oneEnd := by simp [hhung]
      seqBound := hq
      program := by simp [ho]
      boundary := by simp [ho] }

/-- `finish` leaves the core idle, so only the handle and `ST` have to agree. -/
theorem inv_finish {op : HostOp} {v : Result} {s : State} (hram : Memory.wf s.panel.ram = true)
    (hhung : s.hung = false) (hh : s.hnd ≠ .unopened ↔ s.st = .ready) (hq : s.seq ≤ 1030) :
    (finish op v s).Inv :=
  inv_of_idle hram rfl ⟨rfl, hhung, rfl, rfl, rfl, rfl, rfl⟩ hh hq

/-- The invariant of an idle core reads neither the requests nor the replies nor the value returned. -/
theorem inv_hostSide {s : State} (hs : s.Inv) (hb : s.busy = false) (rest : List HostRequest) (v : Ret)
    (rs : List Reply) : State.Inv { s with reqs := rest, ret := v, replies := rs } :=
  inv_of_idle hs.ram hb (hs.idle hb) (hs.handle_idle hb) hs.seqBound

/-! ### The invariant at the start of an operation -/

/-- An INITIALIZE before its open step. -/
theorem inv_accept {s : State} (hs : s.Inv) (hb : s.busy = false) (hh : s.hnd = .unopened) :
    (accept s).Inv := by
  have hhung : s.hung = false := (hs.idle hb).2.1
  have hst : s.st ≠ .ready := fun h => (hs.handle_idle hb).mpr h hh
  exact
    { ram := hs.ram
      idle := by simp
      handle := by simp [hh, hst]
      opening := by simp [hh]
      initPb := by simp
      update := by simp
      oneEnd := by simp
      seqBound := hs.seqBound
      program := by simp
      boundary := by simp }

/-- A write program at its start: the core stands at entry 0, before the first command. -/
theorem inv_startProgram {k : OpKind} {s : State} (hk : k ≠ .none)
    (hram : Memory.wf s.panel.ram = true) (hb : s.busy = true) (hhung : s.hung = false)
    (hr : s.raised = none) (hc : s.cmdRest = []) (hpb : s.pb = none) (hh : s.hnd ≠ .unopened)
    (hst : s.st = .ready ∨ k = .init)
    (hupdate : k = .update → ∃ surf, s.surf = some surf ∧ panelSized surf = true) :
    (startProgram k (flattenCommands s.par.ops k.commands) s).Inv := by
  have hissued : (startProgram k (flattenCommands s.par.ops k.commands) s).issued = 0 :=
    issued_eq_seq hhung hr
  have hprog : (startProgram k (flattenCommands s.par.ops k.commands) s).program =
      flattenCommands s.par.ops k.commands := by
    cases k
    · exact absurd rfl hk
    · rfl
    · simp [State.program, hpb]; rfl
  exact
    { ram := hram
      idle := by simp [hb]
      handle := by simp [hh, hst]
      opening := by simp [hk]
      initPb := by simp [hpb]
      update := fun hu => by
        obtain ⟨surf, hsurf, hsize⟩ := hupdate hu
        exact ⟨hst.resolve_right (by rw [show k = .update from hu]; simp), surf, hsurf, hsize, .inl hpb⟩
      oneEnd := by simp [hr]
      seqBound := Nat.zero_le _
      program := fun _ => by simp [State.unsent, hc, hissued, hprog]
      boundary := fun _ _ => by
        rw [hissued]
        cases k <;> simp [commandBoundary, hc] }

/-! ### The steps inside an operation keep the invariant -/

theorem inv_afterOpen {s : State} (hs : s.Inv) (hb : s.busy = true) (ho : s.opk = .none)
    (hhung : s.hung = false) : (afterOpen (transportOpen devAddr s)).Inv := by
  obtain ⟨hh, hr, hqueue, hc, hpb⟩ := hs.opening hb ho
  have hst : s.st ≠ .ready := fun h => hs.handle.mpr (.inl h) hh
  rcases afterOpen_cases s with ⟨-, he⟩ | ⟨_, -, he⟩ | ⟨_, -, he⟩ <;> rw [he]
  · exact inv_startProgram (k := .init) (by simp) hs.ram hb hhung hr hc hpb (by simp) (.inr rfl) (by simp)
  · exact inv_finish hs.ram hhung (by simp [hh]) hs.seqBound
  · exact
      { ram := hs.ram
        idle := by simp [hb]
        handle := hs.handle
        opening := hs.opening
        initPb := hs.initPb
        update := hs.update
        oneEnd := by simp [hr]
        seqBound := hs.seqBound
        program := fun h => absurd ho h
        boundary := fun _ h => absurd ho h }

/-- Whatever the outcome of the write at `SEQ`, its entry has been given to the Transport. -/
theorem WriteEffect.issued {h : Nat} {x : Xact} {s t : State} {w : WriteOutcome}
    (e : WriteEffect h x s t w) (hhung : s.hung = false) (hr : s.raised = none) :
    t.issued = s.seq + 1 := by
  rcases e.outcome with ⟨-, hseq, hraised, hhung'⟩ | ⟨-, hseq, hraised, -⟩ | ⟨-, hseq, -, hhung'⟩
  · simp [State.issued, hseq, hraised, hhung', hhung, hr]
  · simp [State.issued, hseq, hraised]
  · simp [State.issued, hseq, hhung']

/-- The write step's entry is the program's entry at `SEQ`; what is left is the program after it. -/
theorem State.Inv.program_at_seq {s : State} (hs : s.Inv) (ho : s.opk ≠ .none) (hhung : s.hung = false)
    (hr : s.raised = none) {x : Xact} {xs : List Xact} (hu : s.unsent = x :: xs) :
    s.program[s.seq]? = some x ∧ xs = s.program.drop (s.seq + 1) ∧ s.seq < s.program.length := by
  obtain ⟨hunsent, -⟩ := hs.program ho
  rw [hu, issued_eq_seq hhung hr] at hunsent
  have hhead : s.program[s.seq]? = some x := by
    have := congrArg (·[0]?) hunsent
    simpa using this.symm
  refine ⟨hhead, ?_, (List.getElem?_eq_some_iff.mp hhead).1⟩
  rw [← List.tail_drop, ← hunsent, List.tail_cons]

/-- After the write step's entry and the bytes `r` that wait behind it the core stands at a command boundary
again: inside a command because it did before, and at its opcode because the decoder took the whole command. -/
theorem commandBoundary_after_write {x : Xact} {q : List Xact} {r : List Byte} {s : State} (hs : s.Inv)
    (ho : s.opk ≠ .none) (hhung : s.hung = false) (hr : s.raised = none)
    (hdistinct : s.par.ops.distinct = true)
    (hu : s.unsent = x :: (r.map fun b => ⟨ctrlCmd, b⟩) ++ q)
    (hd : s.cmdRest = x.byte :: r ∨
      (s.cmdRest = [] ∧ ∀ i rest, decodeWire s.par.ops s.queue = .ok i rest → rest = q)) :
    commandBoundary s.opk (s.seq + (r.length + 1)) = true := by
  have hbound := hs.boundary hdistinct ho
  rw [issued_eq_seq hhung hr] at hbound
  rcases hd with hc | ⟨hc, hdec⟩
  · simpa [hc] using hbound
  · obtain ⟨tail, htail⟩ := program_eq_commands_append s
    have hqueue : s.queue = (flattenCommands s.par.ops s.opk.commands ++ tail).drop s.seq := by
      simpa [issued_eq_seq hhung hr, htail, State.unsent, hc] using (hs.program ho).1
    have htaken : s.queue = (x :: r.map fun b => ⟨ctrlCmd, b⟩) ++ q := by
      simpa [State.unsent, hc] using hu
    have hnext := commandBoundary_next hdistinct (by simpa [hc] using hbound) (hqueue ▸ htaken)
      (by rwa [← hqueue])
    simpa using hnext

theorem inv_write {h : Nat} {x : Xact} {q : List Xact} {r : List Byte} {s t : State} {w : WriteOutcome}
    (hs : s.Inv) (hb : s.busy = true) (ho : s.opk ≠ .none) (hhung : s.hung = false)
    (hr : s.raised = none) (hu : s.unsent = x :: (r.map fun b => ⟨ctrlCmd, b⟩) ++ q)
    (hd : s.cmdRest = x.byte :: r ∨
      (s.cmdRest = [] ∧ ∀ i rest, decodeWire s.par.ops s.queue = .ok i rest → rest = q))
    (e : WriteEffect h x { s with queue := q, cmdRest := r } t w) : t.Inv := by
  have hissued : t.issued = s.seq + 1 := e.issued hhung hr
  have hprog : t.program = s.program := program_congr e.opk e.par e.pb
  have hunsent : t.unsent = (r.map fun b => ⟨ctrlCmd, b⟩) ++ q := by
    simp only [State.unsent, e.cmdRest, e.queue]
  obtain ⟨-, hrest, hlt⟩ := hs.program_at_seq ho hhung hr (List.cons_append ▸ hu)
  have hlen := program_length_le hs
  exact
    { ram := e.ram hs.ram
      idle := by simp [e.busy, hb]
      handle := by rw [e.hnd, e.st, e.opk]; exact hs.handle
      opening := fun _ h => absurd (e.opk ▸ h) ho
      initPb := by rw [e.opk, e.pb]; exact hs.initPb
      update := by rw [e.opk, e.st, e.surf, e.pb]; exact hs.update
      oneEnd := by
        rcases e.outcome with ⟨-, -, hraised, -⟩ | ⟨-, -, -, hhung'⟩ | ⟨-, -, hraised, -⟩
        · simp [hraised, hr]
        · simp [hhung', hhung]
        · simp [hraised, hr]
      seqBound := by
        rcases e.outcome with ⟨-, hseq, -⟩ | ⟨-, hseq, -⟩ | ⟨-, hseq, -⟩ <;> simp only at hseq <;> omega
      program := fun _ => by
        rw [hunsent, hprog, hissued]
        exact ⟨hrest, hlt⟩
      boundary := fun hdistinct _ => by
        have := commandBoundary_after_write hs ho hhung hr (e.par ▸ hdistinct) hu hd
        rw [hissued, e.cmdRest, e.opk]
        rwa [Nat.add_assoc, Nat.add_comm 1] }

/-- The encode step stands at the end of the window commands, where the frame begins (R133 row encode). -/
theorem inv_frame {surf : Surface} {s t : State} (hs : s.Inv) (hb : s.busy = true) (ho : s.opk = .update)
    (hhung : s.hung = false) (hr : s.raised = none) (hc : s.cmdRest = []) (hqueue : s.queue = [])
    (hpb : s.pb = none) (hsurf : s.surf = some surf) (hsize : panelSized surf = true)
    (ht : t = expand (frameStream (encodeBuffer surf))
      { s with pb := some (encodeBuffer surf), pg := 0, col := 0, acc := packByte surf 7 127, ret := .ok }) :
    t.Inv := by
  subst ht
  obtain ⟨hunsent, hle⟩ := hs.program (by simp [ho])
  have hprog : s.program = windowStream s.par.ops := by simp [State.program, ho, hpb]
  rw [hprog, issued_eq_seq hhung hr] at hunsent hle
  have hseq : s.seq = 6 := by
    have := congrArg List.length hunsent
    simp [State.unsent, hc, hqueue] at this hle
    omega
  exact
    { ram := hs.ram
      idle := by simp [hb]
      handle := hs.handle
      opening := by simp [ho]
      initPb := by simp [ho]
      update := fun _ => ⟨(hs.update ho).1, surf, hsurf, hsize, .inr rfl⟩
      oneEnd := hs.oneEnd
      seqBound := hs.seqBound
      program := by simp [State.unsent, State.program, State.issued, hc, hqueue, ho, hhung, hr, hseq]
      boundary := by simp [State.issued, commandBoundary, hc, ho, hhung, hr, hseq] }

theorem inv_completeOperation {s : State} (hs : s.Inv) (ho : s.opk ≠ .none) (hhung : s.hung = false) :
    (completeOperation s).Inv := by
  rcases completeOperation_cases ho with ⟨hk, he⟩ | ⟨hk, he⟩ <;> rw [he]
  · exact inv_finish hs.ram hhung (by simpa [hk] using hs.handle) hs.seqBound
  · exact inv_finish hs.ram hhung (by simpa [hk] using hs.handle) hs.seqBound

theorem inv_abortOperation {x : Xact} {s t : State} (hs : s.Inv) (hhung : s.hung = false)
    (h : abortOperation x s = .next t) : t.Inv := by
  rcases abortOperation_cases x s with ⟨-, he⟩ | ⟨hk, he⟩ | ⟨-, he⟩ <;> rw [he] at h <;> cases h
  · exact inv_finish (by simpa using hs.ram) (by simpa using hhung) (by simp) (by simpa using hs.seqBound)
  · exact inv_finish hs.ram hhung (by simpa [hk] using hs.handle) hs.seqBound

/-! ### The host operations keep the invariant -/

theorem inv_hostOp {i : Instr} {s t : State} (hs : s.Inv) (hb : s.busy = false)
    (hi : isHostOp i = true) (h : exec i s = .next t) : t.Inv := by
  have hhung : s.hung = false := (hs.idle hb).2.1
  have hh := hs.handle_idle hb
  rcases exec_host_cases hi h hb with ⟨_, _, rfl, -⟩ | ⟨rfl, hclosed⟩ | ⟨rfl, hopen⟩ |
    ⟨surf, rfl, hready, hsize⟩ | ⟨rfl, hclosed⟩ | ⟨rfl, -⟩ | ⟨_, _, rfl⟩
  · exact inv_finish hs.ram hhung hh hs.seqBound
  · exact inv_accept hs hb hclosed
  · exact inv_startProgram (k := .init) (by simp) hs.ram rfl hhung rfl rfl rfl hopen (.inr rfl) (by simp)
  · exact inv_startProgram (k := .update) (by simp) hs.ram rfl hhung rfl rfl rfl (hh.mpr hready)
      (.inl hready) fun _ => ⟨surf, rfl, hsize⟩
  · exact inv_finish hs.ram hhung (by simp [hclosed]) hs.seqBound
  · exact inv_finish (by simpa using hs.ram) (by simpa using hhung) (by simp) (by simpa using hs.seqBound)
  · exact inv_hostSide hs hb _ _ _

/-! ### Reset and the whole step -/

theorem inv_reset : State.reset.Inv :=
  inv_of_idle reset_ram_wf rfl ⟨rfl, rfl, rfl, rfl, rfl, rfl, rfl⟩ (by simp [State.reset]) (Nat.zero_le _)

theorem inv_step {s t : State} (hs : s.Inv) (h : step s = .next t) : t.Inv := by
  obtain ⟨hhung, hcase⟩ := step_cases h
  cases hcase with
  | idle _ he => exact he ▸ hs
  | ignore hb rest he => exact he ▸ inv_hostSide hs hb rest s.ret s.replies
  | host hb i rest hi he => exact inv_hostOp (inv_hostSide hs hb rest s.ret s.replies) hb hi he
  | opens hb ho _ he => exact he ▸ inv_afterOpen hs hb ho hhung
  | write hb ho hr k _ x q r hu hd he =>
    obtain ⟨_, heff⟩ := write_effect k x _ t he
    refine inv_write hs hb ho hhung hr hu ?_ heff
    rcases hd with hinside | ⟨hc, i, hi, -⟩ | ⟨hc, -, -, why, hwhy⟩
    · exact .inl hinside.1
    · exact .inr ⟨hc, fun _ _ h => by rw [hi] at h; cases h; rfl⟩
    · exact .inr ⟨hc, fun _ _ h => by rw [hwhy] at h; cases h⟩
  | frame hb ho hr hc hq hp surf hsurf hsize he =>
    exact inv_frame hs hb ho hhung hr hc hq hp hsurf hsize he
  | complete _ ho _ _ _ _ he => exact he ▸ inv_completeOperation hs ho hhung
  | abort _ _ _ he => exact inv_abortOperation hs hhung he

/-- Settles O2: the state after reset is idle and holds nothing of an operation. -/
theorem resetMeetsInvariant : Obligations.ResetMeetsInvariant := inv_reset

/-- Settles O3: each of the step's cases keeps the invariant. -/
theorem stepKeepsInvariant : Obligations.StepKeepsInvariant :=
  fun _ _ hs h => inv_step hs h

end Sys2Proof.Machine
end

section
/-! What a step does to the handle and to the history of Transport calls (10_state R15, R16;
44_display_controller R133): the order of the register writes and the pairing of opens and closes. -/

namespace Sys2Proof.Machine

/-- What a step from `s` to `t` did to the bus: nothing, an open by its answer, a close of the handle held,
or the register write at `SEQ`. -/
inductive BusEffect (s t : State) : Prop
  | quiet (htrace : t.trace = s.trace) (hhnd : t.hnd = s.hnd)
  | opened (addr : BitVec 7) (k : Nat) (hb : s.busy = true) (ho : s.opk = .none)
      (htrace : t.trace = s.trace ++ [.opened addr k]) (hhnd : t.hnd = .opened k)
  | openFailed (addr : BitVec 7) (htrace : t.trace = s.trace ++ [.openFailed addr]) (hhnd : t.hnd = s.hnd)
  | openUnanswered (addr : BitVec 7) (htrace : t.trace = s.trace ++ [.openUnanswered addr])
      (hhnd : t.hnd = s.hnd)
  | closed (k : Nat) (ok : Bool) (hheld : s.hnd = .opened k)
      (htrace : t.trace = s.trace ++ [.closed k ok]) (hhnd : t.hnd = .unopened)
  | wrote (k : Nat) (x : Xact) (w : WriteOutcome) (xs : List Xact) (ho : s.opk ≠ .none)
      (hr : s.raised = none) (hheld : s.hnd = .opened k) (hunsent : s.unsent = x :: xs)
      (htrace : t.trace = s.trace ++ [.write k x w]) (hhnd : t.hnd = s.hnd)
      (hseq : t.seq = if w = .acknowledged then s.seq + 1 else s.seq)

/-! ### The parts of a step -/

/-- A step that releases the handle of `u`, which is `s` before it, closes it or has none to close. -/
theorem busEffect_of_releaseHandle {s u t : State} (hutrace : u.trace = s.trace) (huhnd : u.hnd = s.hnd)
    (htrace : t.trace = (releaseHandle u).trace) (hhnd : t.hnd = .unopened) : BusEffect s t := by
  rcases releaseHandle_cases u with ⟨hclosed, hkept⟩ | ⟨k, ok, hheld, hclose⟩
  · exact .quiet (by rw [htrace, hkept, hutrace]) (by rw [hhnd, ← huhnd, hclosed])
  · exact .closed k ok (huhnd ▸ hheld) (by rw [htrace, hclose, hutrace]) hhnd

theorem busEffect_afterOpen {s : State} (hb : s.busy = true) (ho : s.opk = .none) :
    BusEffect s (afterOpen (transportOpen devAddr s)) := by
  rcases afterOpen_cases s with ⟨-, he⟩ | ⟨_, -, he⟩ | ⟨_, -, he⟩ <;> rw [he]
  · exact .opened devAddr (s.tokens + 1) hb ho rfl rfl
  · exact .openFailed devAddr rfl rfl
  · exact .openUnanswered devAddr rfl rfl

/-- `SEQ` advances exactly on an acknowledgement (10_state R18). -/
theorem WriteEffect.seq {h : Nat} {x : Xact} {s t : State} {w : WriteOutcome} (e : WriteEffect h x s t w) :
    t.seq = if w = .acknowledged then s.seq + 1 else s.seq := by
  rcases e.outcome with ⟨rfl, hseq, -⟩ | ⟨rfl | rfl, hseq, -⟩ | ⟨rfl, hseq, -⟩ <;> simpa using hseq

theorem busEffect_hostOp {i : Instr} {s t : State} {rest : List HostRequest} (hi : isHostOp i = true)
    (h : exec i { s with reqs := rest } = .next t) (hb : s.busy = false) : BusEffect s t := by
  rcases exec_host_cases hi h hb with ⟨_, _, rfl, -⟩ | ⟨rfl, -⟩ | ⟨rfl, -⟩ | ⟨_, rfl, -⟩ | ⟨rfl, -⟩ |
    ⟨rfl, -⟩ | ⟨_, _, rfl⟩
  case inr.inr.inr.inr.inr.inl =>
    exact busEffect_of_releaseHandle (u := { s with reqs := rest }) rfl rfl rfl rfl
  all_goals exact .quiet rfl rfl

theorem busEffect_completeOperation (s : State) : BusEffect s (completeOperation s) := by
  refine .quiet (completeOperation_trace s) ?_
  unfold completeOperation
  split <;> rfl

theorem busEffect_abortOperation {x : Xact} {s t : State} (h : abortOperation x s = .next t) :
    BusEffect s t := by
  rcases abortOperation_cases x s with ⟨-, he⟩ | ⟨-, he⟩ | ⟨-, he⟩ <;> rw [he] at h <;> cases h
  · exact busEffect_of_releaseHandle (u := s) rfl rfl rfl rfl
  · exact .quiet rfl rfl

/-! ### The whole step -/

theorem step_busEffect {s t : State} (h : step s = .next t) : s.hung = false ∧ BusEffect s t := by
  obtain ⟨hhung, hcase⟩ := step_cases h
  refine ⟨hhung, ?_⟩
  cases hcase with
  | idle _ he | ignore _ _ he | frame _ _ _ _ _ _ _ _ _ he => subst he; exact .quiet rfl rfl
  | host hb i rest hi he => exact busEffect_hostOp hi he hb
  | opens hb ho _ he => exact he ▸ busEffect_afterOpen hb ho
  | write _ ho hr k hheld x q r hu _ he =>
    obtain ⟨w, heff⟩ := write_effect k x _ t he
    exact .wrote k x w _ ho hr hheld hu heff.trace heff.hnd heff.seq
  | complete _ _ _ _ _ _ he => exact he ▸ busEffect_completeOperation s
  | abort _ _ _ he => exact busEffect_abortOperation he

/-- Settles O6: of the effects on the bus only the write step's adds a write, and the invariant says that
its transaction is the program's entry at `SEQ`. -/
theorem writesInProgramOrder : Obligations.WritesInProgramOrder := by
  intro s t h x w hs hstep htr
  obtain ⟨hhung, heff⟩ := step_busEffect hstep
  cases heff with
  | quiet htrace | opened _ _ _ _ htrace | openFailed _ htrace | openUnanswered _ htrace
  | closed _ _ _ htrace => simp [htrace] at htr
  | wrote k y v xs ho hr hheld hunsent htrace _ hseq =>
    obtain ⟨rfl, rfl, rfl⟩ : k = h ∧ y = x ∧ v = w := by simpa [htrace] using htr
    exact ⟨ho, hheld, (hs.program_at_seq ho hhung hr hunsent).1, hseq⟩

/-! ### Opens and closes -/

theorem opensIn_append (cs ds : List Call) : opensIn (cs ++ ds) = opensIn cs + opensIn ds := by
  induction cs with
  | nil => simp [opensIn]
  | cons c cs ih => cases c <;> simp [opensIn, ih]; omega

theorem closesIn_append (cs ds : List Call) : closesIn (cs ++ ds) = closesIn cs + closesIn ds := by
  induction cs with
  | nil => simp [closesIn]
  | cons c cs ih => cases c <;> simp [closesIn, ih]; omega

/-- Settles O9: an open step starts without a handle, a close gives up the one held, and no other call
changes the handle or the counts. -/
theorem handlesArePaired : Obligations.HandlesArePaired := by
  refine ⟨rfl, fun s t hs hpaired hstep => ?_⟩
  obtain ⟨-, heff⟩ := step_busEffect hstep
  unfold State.handlesPaired at hpaired ⊢
  cases heff with
  | quiet htrace hhnd => rw [htrace, hhnd, hpaired]
  | openFailed _ htrace hhnd | openUnanswered _ htrace hhnd | wrote _ _ _ _ _ _ _ _ htrace hhnd =>
    rw [htrace, hhnd, opensIn_append, closesIn_append, hpaired]
    simp [opensIn, closesIn]
  | opened _ _ hb ho htrace hhnd =>
    obtain ⟨hclosed, -⟩ := hs.opening hb ho
    rw [if_pos hclosed] at hpaired
    simp [htrace, hhnd, opensIn_append, closesIn_append, opensIn, closesIn, hpaired]
  | closed _ _ hheld htrace hhnd =>
    simp [hheld] at hpaired
    simp [htrace, hhnd, opensIn_append, closesIn_append, opensIn, closesIn, hpaired]

/-! ### `SEQ` -/

/-- A step inside an operation that leaves it in progress moves `SEQ` by at most one, or is the open step. -/
theorem step_seq_of_busy {s t : State} (h : step s = .next t) (hb : s.busy = true) (hbt : t.busy = true) :
    (t.opk = s.opk ∧ (t.seq = s.seq ∨ t.seq = s.seq + 1)) ∨ (s.opk = .none ∧ t.opk = .init ∧ t.seq = 0) := by
  obtain ⟨-, hcase⟩ := step_cases h
  cases hcase with
  | idle hidle | ignore hidle | host hidle => simp [hidle] at hb
  | opens _ ho _ he =>
    rcases afterOpen_cases s with ⟨-, hopen⟩ | ⟨_, -, hopen⟩ | ⟨_, -, hopen⟩ <;> rw [hopen] at he <;> subst he
    · exact .inr ⟨ho, rfl, rfl⟩
    · simp at hbt
    · exact .inl ⟨rfl, .inl rfl⟩
  | write _ _ _ k _ x q r _ _ he =>
    obtain ⟨_, heff⟩ := write_effect k x _ t he
    refine .inl ⟨heff.opk, ?_⟩
    rw [heff.seq]
    split <;> simp
  | frame _ _ _ _ _ _ _ _ _ he => subst he; exact .inl ⟨rfl, .inl rfl⟩
  | complete _ ho _ _ _ _ he =>
    rcases completeOperation_cases ho with ⟨-, hdone⟩ | ⟨-, hdone⟩ <;> simp [he, hdone] at hbt
  | abort _ x _ he =>
    rcases abortOperation_cases x s with ⟨-, ha⟩ | ⟨-, ha⟩ | ⟨-, ha⟩ <;> rw [ha] at he <;> cases he <;>
      simp at hbt

/-- A step of an idle core that leaves an operation in progress started its write program, or an
INITIALIZE whose open step is next. -/
theorem step_seq_of_idle {s t : State} (h : step s = .next t) (hb : s.busy = false) (hbt : t.busy = true) :
    (t.opk ≠ .none ∧ t.seq = 0) ∨ (t.opk = .none ∧ t.hnd = .unopened ∧ t.seq = s.seq) := by
  obtain ⟨-, hcase⟩ := step_cases h
  cases hcase with
  | idle _ he | ignore _ _ he => simp [he, hb] at hbt
  | host _ i rest hi he =>
    rcases exec_host_cases hi he hb with ⟨_, _, rfl, -⟩ | ⟨rfl, hclosed⟩ | ⟨rfl, -⟩ | ⟨_, rfl, -⟩ |
      ⟨rfl, -⟩ | ⟨rfl, -⟩ | ⟨_, _, rfl⟩
    case inr.inl => exact .inr ⟨rfl, hclosed, rfl⟩
    case inr.inr.inl | inr.inr.inr.inl => exact .inl ⟨by simp, rfl⟩
    all_goals simp [hb] at hbt
  | opens hbusy | write hbusy | frame hbusy | complete hbusy | abort hbusy => simp [hb] at hbusy

/-- Settles O7. -/
theorem sequencePointerSteps : Obligations.SequencePointerSteps :=
  ⟨fun _ _ => step_seq_of_busy, fun _ _ => step_seq_of_idle⟩

end Sys2Proof.Machine
end

section
/-! The host operations at an idle and at a busy core (44_display_controller R130, 20_memory R51), the stops
of the forms the core never runs (log 18, 23, 24), and the state after reset (10_state R31). -/

namespace Sys2Proof.Machine

/-! ### DISPOSE -/

theorem exec_dispose_unopened {s : State} (hb : s.busy = false) (hh : s.hnd = .unopened) :
    exec .dispose s = .next (finish .dispose .ok { s with st := .closed }) := by
  simp [exec, execDispose, hb, hh]

theorem exec_dispose_opened {s : State} {h : Nat} (hb : s.busy = false) (hh : s.hnd = .opened h) :
    exec .dispose s = .next (finish .dispose .ok { releaseHandle s with st := .closed }) := by
  simp [exec, execDispose, hb, hh]

/-- Once the handle is given up, DISPOSE makes no call (44_display_controller R139). -/
theorem exec_dispose_again {t : State} (hb : t.busy = false) (hh : t.hnd = .unopened) :
    ∃ u, exec .dispose t = .next u ∧ u.trace = t.trace ∧ u.res = .ok ∧ u.st = .closed :=
  ⟨_, exec_dispose_unopened hb hh, rfl, rfl, rfl⟩

/-- Settles O50, by whether the handle is open; the second DISPOSE finds it given up. What is left after
the calls is the frame of the operation. -/
theorem disposeClosesOnce : Obligations.DisposeClosesOnce := by
  intro s hb
  cases hh : s.hnd with
  | unopened =>
    have hagain := exec_dispose_again (t := finish .dispose .ok { s with st := .closed }) rfl hh
    refine ⟨_, exec_dispose_unopened hb hh, ?_⟩
    simpa [hh, SamePanel, State.ramByte] using hagain
  | opened h =>
    obtain ⟨ok, htrace⟩ : ∃ ok, (releaseHandle s).trace = s.trace ++ [.closed h ok] := by
      simpa [hh] using releaseHandle_cases s
    have hagain := exec_dispose_again (t := finish .dispose .ok { releaseHandle s with st := .closed }) rfl rfl
    refine ⟨_, exec_dispose_opened hb hh, ?_⟩
    simpa [htrace, SamePanel, State.ramByte] using hagain

/-! ### Overlapping operations -/

theorem exec_busy_refused {s : State} (surf : Surface) (hb : s.busy = true) :
    exec .initializeOp s = .refused .hostWhileBusy ∧ exec (.update surf) s = .refused .hostWhileBusy ∧
      exec .dispose s = .refused .hostWhileBusy := by
  simp [exec, execInitialize, execUpdate, execDispose, hb]

theorem step_reqs_of_busy {s t : State} (hb : s.busy = true) (h : step s = .next t) : t.reqs = s.reqs := by
  obtain ⟨-, hcase⟩ := step_cases h
  cases hcase with
  | idle hidle | ignore hidle | host hidle => simp [hb] at hidle
  | opens _ _ _ he =>
    rcases afterOpen_cases s with ⟨-, hopen⟩ | ⟨_, -, hopen⟩ | ⟨_, -, hopen⟩ <;> rw [he, hopen] <;> rfl
  | write _ _ _ k _ x q r _ _ he =>
    obtain ⟨_, heff⟩ := write_effect k x _ t he
    exact heff.reqs
  | frame _ _ _ _ _ _ _ _ _ he => subst he; rfl
  | complete _ ho _ _ _ _ he =>
    rcases completeOperation_cases ho with ⟨-, hdone⟩ | ⟨-, hdone⟩ <;> rw [he, hdone] <;> rfl
  | abort _ x _ he =>
    rcases abortOperation_cases x s with ⟨-, ha⟩ | ⟨-, ha⟩ | ⟨-, ha⟩ <;> rw [ha] at he <;> cases he <;> simp

/-- Settles O53. -/
theorem overlappingOperationRefused : Obligations.OverlappingOperationRefused :=
  ⟨fun _ surf hb => exec_busy_refused surf hb, fun _ _ => step_reqs_of_busy⟩

/-! ### Forms the core never runs -/

/-- Settles O34: each form stops at its first test. -/
theorem unreachableFormsStopByName : Obligations.UnreachableFormsStopByName := by
  refine ⟨fun ctrl byte s hh => ?_, fun s hpb => ?_, fun surf page x s hsize => ⟨?_, ?_, ?_⟩⟩
  · simp [exec, execTWrite, writeRegister, hh]
  · simp [exec, execSendFrame, hpb]
  · simp [exec, execPack, hsize]
  · simp [exec, execEncode, hsize]
  · simp [exec, execUpdateProgram, hsize]

/-! ### Reset -/

/-- A core with no operation in progress and no request waits (44_display_controller R133). -/
theorem step_waiting {s : State} (hhung : s.hung = false) (hb : s.busy = false) (hq : s.reqs = []) :
    step s = .next s := by
  simp [step, nextAction, nextRequest, hhung, hb, hq]

/-- Settles O1. -/
theorem resetStateAsSpecified : Obligations.ResetStateAsSpecified :=
  ⟨rfl, rfl, rfl, rfl, rfl, rfl, rfl, rfl, rfl, step_waiting rfl rfl rfl⟩

end Sys2Proof.Machine
end

section
/-! A run of acknowledged writes (44_display_controller R133, R134): the core sends its outstanding entries
one a step, and the panel receives them in order. The initialization stream leaves the panel configured
(10_state R27). -/

namespace Sys2Proof.Machine

/-! ### The panel receives a list of transactions -/

/-- The panel after the transactions `xs`, the first at answer number `n`. -/
def Panel.receiveAll (o : OpTable) : Panel → Nat → List Xact → Panel
  | p, _, [] => p
  | p, n, x :: xs => (p.receive o n x).receiveAll o (n + 1) xs

theorem receiveAll_append (o : OpTable) (p : Panel) (n : Nat) (xs ys : List Xact) :
    p.receiveAll o n (xs ++ ys) = (p.receiveAll o n xs).receiveAll o (n + xs.length) ys := by
  induction xs generalizing p n with
  | nil => rfl
  | cons x xs ih =>
    simp only [List.cons_append, Panel.receiveAll, ih, List.length_cons]
    rw [show n + 1 + xs.length = n + (xs.length + 1) by omega]

/-- The parameters of a command complete it, and it has its effect. -/
theorem receiveAll_params (o : OpTable) {k : Cmd} {c : PanelCfg} {ps got : List Byte} {p : Panel} (m n : Nat)
    (hlen : got.length + ps.length = k.arity) (hc : p.cfg.command k (got ++ ps) = some c) :
    (p.collect m k got).receiveAll o n (ps.map fun b => ⟨ctrlCmd, b⟩) =
      { p with cfg := c, rx := .boundary } := by
  induction ps generalizing got p m n with
  | nil => exact collect_done m hlen (by simpa using hc)
  | cons b ps ih =>
    simp only [List.length_cons] at hlen
    rw [collect_waits m (by omega), List.map_cons, Panel.receiveAll, receive_parameter n rfl]
    exact ih n (n + 1) (by simp; omega) (by simpa using hc)

/-- A whole command at a command boundary has its effect (41_command_table R79, 30_encoding R66). -/
theorem receiveAll_commandXacts {o : OpTable} (hd : o.distinct = true) {k : Cmd} {ps : List Byte}
    {c : PanelCfg} {p : Panel} (n : Nat) (hrx : p.rx = .boundary) (hlen : ps.length = k.arity)
    (hc : p.cfg.command k ps = some c) :
    p.receiveAll o n (commandXacts (o.op k) ps) = { p with cfg := c } := by
  rw [commandXacts, List.map_cons, Panel.receiveAll, receive_opcode n hrx hd,
    receiveAll_params o n (n + 1) (by simpa using hlen) hc, ← hrx]

/-- The configuration a list of commands makes, where each of them has an effect. -/
def PanelCfg.commands (c : PanelCfg) (cs : List (Cmd × List Byte)) : Option PanelCfg :=
  cs.foldlM (fun c k => c.command k.1 k.2) c

theorem receiveAll_flattenCommands {o : OpTable} (hd : o.distinct = true) {cs : List (Cmd × List Byte)}
    (hcs : ∀ k ∈ cs, k.2.length = k.1.arity) {c : PanelCfg} {p : Panel} (n : Nat) (hrx : p.rx = .boundary)
    (hc : p.cfg.commands cs = some c) : p.receiveAll o n (flattenCommands o cs) = { p with cfg := c } := by
  induction cs generalizing p n with
  | nil =>
    obtain rfl : p.cfg = c := by simpa [PanelCfg.commands] using hc
    rfl
  | cons k cs ih =>
    obtain ⟨c', hk, hrest⟩ : ∃ c', p.cfg.command k.1 k.2 = some c' ∧ c'.commands cs = some c := by
      simpa [PanelCfg.commands, Option.bind_eq_some_iff] using hc
    rw [flattenCommands_cons, receiveAll_append,
      receiveAll_commandXacts hd n hrx (hcs k List.mem_cons_self) hk]
    exact ih (fun j hj => hcs j (List.mem_cons_of_mem k hj)) _ hrx hrest

/-- The initialization commands make the configuration of 10_state R27. -/
theorem commands_initCommands (c : PanelCfg) : c.commands initCommands = some (initializedCfg c) := rfl

theorem receiveAll_initStream {o : OpTable} (hd : o.distinct = true) {p : Panel} (n : Nat)
    (hrx : p.rx = .boundary) : p.receiveAll o n (initStream o) = { p with cfg := initializedCfg p.cfg } :=
  receiveAll_flattenCommands hd (commands_arity .init) n hrx (commands_initCommands p.cfg)

/-! ### A run of acknowledged writes -/

/-- The core has its handle `h` and an operation in progress in which nothing has gone wrong. -/
structure State.Writing (s : State) (h : Nat) : Prop where
  busy : s.busy = true
  hung : s.hung = false
  raised : s.raised = none
  opk : s.opk ≠ .none
  hnd : s.hnd = .opened h

/-- `t` is `s` after the entries `xs` have been sent through handle `h` and acknowledged. -/
structure Acknowledged (h : Nat) (xs : List Xact) (s t : State) : Prop where
  unsent : s.unsent = xs ++ t.unsent
  trace : t.trace = s.trace ++ xs.map fun x => .write h x .acknowledged
  seq : t.seq = s.seq + xs.length
  script : s.script = List.replicate xs.length .ok ++ t.script
  draws : t.draws = s.draws + xs.length
  panel : t.panel = s.panel.receiveAll s.par.ops s.draws xs
  par : t.par = s.par
  st : t.st = s.st
  hnd : t.hnd = s.hnd
  res : t.res = s.res
  busy : t.busy = s.busy
  hung : t.hung = s.hung
  raised : t.raised = s.raised
  opk : t.opk = s.opk
  pb : t.pb = s.pb
  surf : t.surf = s.surf
  tokens : t.tokens = s.tokens
  diags : t.diags = s.diags
  reqs : t.reqs = s.reqs
  replies : t.replies = s.replies

theorem Acknowledged.refl (h : Nat) (s : State) : Acknowledged h [] s s := by
  constructor <;> simp [Panel.receiveAll]

theorem Acknowledged.trans {h : Nat} {xs ys : List Xact} {s t u : State} (a : Acknowledged h xs s t)
    (b : Acknowledged h ys t u) : Acknowledged h (xs ++ ys) s u where
  unsent := by rw [a.unsent, b.unsent, List.append_assoc]
  trace := by rw [b.trace, a.trace, List.map_append, List.append_assoc]
  seq := by rw [b.seq, a.seq, List.length_append, Nat.add_assoc]
  script := by rw [a.script, b.script, List.length_append, List.replicate_add, List.append_assoc]
  draws := by rw [b.draws, a.draws, List.length_append, Nat.add_assoc]
  panel := by rw [b.panel, a.panel, a.par, a.draws, receiveAll_append]
  par := b.par.trans a.par
  st := b.st.trans a.st
  hnd := b.hnd.trans a.hnd
  res := b.res.trans a.res
  busy := b.busy.trans a.busy
  hung := b.hung.trans a.hung
  raised := b.raised.trans a.raised
  opk := b.opk.trans a.opk
  pb := b.pb.trans a.pb
  surf := b.surf.trans a.surf
  tokens := b.tokens.trans a.tokens
  diags := b.diags.trans a.diags
  reqs := b.reqs.trans a.reqs
  replies := b.replies.trans a.replies

theorem Acknowledged.writing {h : Nat} {xs : List Xact} {s t : State} (a : Acknowledged h xs s t)
    (hs : s.Writing h) : t.Writing h where
  busy := a.busy.trans hs.busy
  hung := a.hung.trans hs.hung
  raised := a.raised.trans hs.raised
  opk := a.opk ▸ hs.opk
  hnd := a.hnd.trans hs.hnd

/-- The write step with an acknowledging answer. -/
theorem step_acknowledged {h : Nat} {s : State} (hs : s.Writing h) {x : Xact} {xs : List Xact}
    {as : List Answer} (hu : s.unsent = x :: xs) (ha : s.script = .ok :: as) :
    ∃ t, step s = .next t ∧ Acknowledged h [x] s t := by
  obtain ⟨r, q, rfl, hstep⟩ := step_send hs.busy hs.hung hs.raised hs.opk hs.hnd hu
  have hok : transportWrite h x { s with queue := q, cmdRest := r } = _ :=
    transportWrite_ok h x (answer_cons ha)
  rw [hok] at hstep
  rcases hstep with hstep | hstep <;> refine ⟨_, hstep, ?_⟩ <;>
    exact ⟨hu, rfl, rfl, by rw [ha]; rfl, rfl, rfl, rfl, rfl, rfl, rfl, rfl, rfl, rfl, rfl, rfl, rfl, rfl,
      rfl, rfl, rfl⟩

/-- Runs compose. -/
theorem run_add {n m : Nat} {s t : State} (h : core.run n s = .next t) :
    core.run (n + m) s = core.run m t := by
  induction n generalizing s with
  | zero => cases h; rw [Nat.zero_add]
  | succ n ih =>
    rw [Nat.succ_add]
    simp only [Host.Core.run] at h ⊢
    cases hstep : core.step s with
    | next u => simp only [hstep] at h ⊢; exact ih h
    | fault e => simp [hstep] at h
    | refused e => simp [hstep] at h

theorem run_one {s t : State} (h : step s = .next t) : core.run 1 s = .next t := by
  have hcore : core.step s = .next t := h
  simp only [Host.Core.run, hcore]

/-- As many steps as there are acknowledging answers send as many of the outstanding entries. -/
theorem run_acknowledged {h : Nat} {s : State} (hs : s.Writing h) {xs rest : List Xact} {as : List Answer}
    (hu : s.unsent = xs ++ rest) (ha : s.script = List.replicate xs.length .ok ++ as) :
    ∃ t, core.run xs.length s = .next t ∧ Acknowledged h xs s t := by
  induction xs generalizing s with
  | nil => exact ⟨s, rfl, .refl h s⟩
  | cons x xs ih =>
    obtain ⟨t, hstep, hack⟩ := step_acknowledged hs hu ha
    have hut : t.unsent = xs ++ rest := by simpa [hu] using hack.unsent.symm
    have hat : t.script = List.replicate xs.length .ok ++ as := by
      simpa [ha, List.replicate_succ] using hack.script.symm
    obtain ⟨u, hrun, hacks⟩ := ih (hack.writing hs) hut hat
    refine ⟨u, ?_, hack.trans hacks⟩
    rw [List.length_cons, Nat.add_comm, run_add (run_one hstep), hrun]

/-! ### INITIALIZE runs to Ready -/

/-- With nothing left to send INITIALIZE completes (44_display_controller R133 row complete). -/
theorem step_complete_init {h : Nat} {s : State} (hs : s.Writing h) (ho : s.opk = .init)
    (hu : s.unsent = []) : step s = .next (finish .initializeOp .ok { s with st := .ready }) := by
  obtain ⟨hc, hqueue⟩ : s.cmdRest = [] ∧ s.queue = [] := by simpa [State.unsent] using hu
  have hnext : nextAction s = .complete := by
    simp [nextAction, nextEntry, hs.hung, hs.busy, hs.raised, ho, hc, hqueue]
  simp only [step, hnext, completeOperation, ho]

/-- Settles O55: the 26 entries are sent and received in order, and the next step completes. -/
theorem initializeRunsToReady : Obligations.InitializeRunsToReady := by
  intro s h as hsending ho hseq hqueue hready hscript
  obtain ⟨hbusy, hhung, hraised, hopk, hc, hhnd⟩ := hsending
  obtain ⟨hrx, hdistinct⟩ := hready
  have hs : s.Writing h := ⟨hbusy, hhung, hraised, hopk, hhnd⟩
  have hunsent : s.unsent = initStream s.par.ops ++ [] := by simp [State.unsent, hc, hqueue]
  obtain ⟨t, hrun, hack⟩ := run_acknowledged hs hunsent (as := as) (by simpa using hscript)
  rw [initStream_length] at hrun
  have hdone : t.unsent = [] := by simpa [hunsent] using hack.unsent
  have hlast := step_complete_init (hack.writing hs) (hack.opk.trans ho) hdone
  have hpanel := hack.panel
  rw [receiveAll_initStream hdistinct s.draws hrx] at hpanel
  refine ⟨_, (run_add (m := 1) hrun).trans (run_one hlast), rfl, rfl, rfl,
    ⟨rfl, hack.hung.trans hhung, rfl, rfl, rfl, rfl, rfl⟩, hack.hnd.trans hhnd,
    ?_, ?_, hack.trace, ?_, ?_, ?_, ?_⟩
  · simpa [hseq] using hack.seq
  · simpa [hscript] using hack.script.symm
  · simp [hack.replies]
  · simp [hpanel]
  · simp [hpanel, hrx]
  · simp [State.ramByte, hpanel]

end Sys2Proof.Machine
end

section
/-! What the panel does with a write that was not acknowledged (20_memory R54, 70_reset_and_hazards R175):
at a parameter, at an opcode, at a data byte. -/

namespace Sys2Proof.Machine

section
variable {p : Panel} {o : OpTable}

/-- A byte that names one command of the table, at a command boundary. -/
theorem receive_named (n : Nat) {b : Byte} {k : Cmd} (hr : p.rx = .boundary) (hn : o.named b = [k]) :
    p.receive o n ⟨ctrlCmd, b⟩ = p.collect n k [] := by
  simp [Panel.receive, hr, Panel.opcode, hn]

/-- An applied transaction that leaves a command open cuts that command. -/
theorem unsure_applied_cut {n : Nat} {x : Xact} {k : Cmd} {got : List Byte} (hr : p.rx = .boundary)
    (hopen : (p.receive o n x).rx = .param k got) : p.unsure o n true x = p.lose n := by
  simp [Panel.unsure, hr, hopen]

/-- An applied transaction that ends at a command boundary has its effect. -/
theorem unsure_applied_whole {n : Nat} {x : Xact} (hr : p.rx = .boundary)
    (hwhole : (p.receive o n x).rx = .boundary) : p.unsure o n true x = p.receive o n x := by
  simp [Panel.unsure, hr, hwhole]

/-- Where an acknowledged transaction writes no RAM, one that was not acknowledged writes none. -/
theorem unsure_ram {n : Nat} (a : Bool) {x : Xact} (hx : (p.receive o n x).ram = p.ram) :
    (p.unsure o n a x).ram = p.ram := by
  unfold Panel.unsure
  split
  · rfl
  · split
    · split
      · rfl
      · exact hx
    · split <;> rfl

/-- At a command boundary an opcode of the table writes no RAM, acknowledged or not. -/
theorem unsure_opcode_ram {b : Byte} (n : Nat) (a : Bool) (hr : p.rx = .boundary)
    (hb : o.find b ≠ none) : (p.unsure o n a ⟨ctrlCmd, b⟩).ram = p.ram := by
  obtain ⟨c, hc⟩ := Option.ne_none_iff_exists'.mp hb
  have hnamed : o.named b ≠ [] := List.ne_nil_of_mem (OpTable.mem_named.mpr (OpTable.op_of_find hc))
  refine unsure_ram a ?_
  simpa [Panel.receive, hr] using opcode_ram n hnamed

/-- The data byte of a failed write fills the write position, or nothing happened (92_eei_decisions D20). -/
theorem unsure_data {n : Nat} {a : Bool} {d : Byte} (hr : p.rx = .boundary) (hm : p.cfg.memMode = 0x00) :
    p.unsure o n a ⟨ctrlData, d⟩ = if a then p.store n d else p := by
  cases a with
  | false => simp [unsure_not_applied n _ hr, opensWindow_data]
  | true =>
    have hwhole : (p.receive o n ⟨ctrlData, d⟩).rx = .boundary := by
      simp [receive_data n hr, store_horizontal n d hm, hr]
    rw [unsure_applied_whole hr hwhole, receive_data n hr, if_pos rfl]

/-- A failed data write leaves the addressed byte old or new, by the draw, and every other byte as it was
(43_address_window R126). -/
theorem unsure_data_read {n : Nat} {a : Bool} {d : Byte} (hr : p.rx = .boundary)
    (hm : p.cfg.memMode = 0x00) (k : Nat) :
    Memory.read (p.unsure o n a ⟨ctrlData, d⟩).ram k =
      if a ∧ k = p.addr then some d else Memory.read p.ram k := by
  rw [unsure_data hr hm]
  cases a with
  | false => simp
  | true =>
    rw [if_pos rfl, store_horizontal n d hm]
    by_cases hk : k = p.addr
    · simp [hk, read_write_same]
    · simp [hk, read_write_other _ _ hk]

/-- The commands whose opcode opens a window command. -/
theorem opensWindow_named {b : Byte} {k : Cmd} (hn : o.named b = [k]) :
    opensWindow o ⟨ctrlCmd, b⟩ = true ↔ k = .coladdr ∨ k = .pageaddr := by
  have hop (c : Cmd) : b = o.op c ↔ k = c := by
    rw [eq_comm, ← OpTable.mem_named, hn, List.mem_singleton, eq_comm]
  have hcol := hop .coladdr
  have hpage := hop .pageaddr
  simp only [OpTable.op] at hcol hpage
  simp [opensWindow, hcol, hpage]

/-- A lost receiver stays lost, whether the write is acknowledged or not (70_reset_and_hazards R175). -/
theorem lost_stays_lost (n : Nat) (a : Bool) (x : Xact) (hr : p.rx = .lost) :
    (p.receive o n x).rx = .lost ∧ (p.unsure o n a x).rx = .lost := by
  refine ⟨by rw [receive_lost n hr]; rfl, ?_⟩
  cases a with
  | true => simp [Panel.unsure, hr, receive_lost n hr, Panel.garble]
  | false =>
    cases hw : opensWindow o x <;> simp [Panel.unsure, hr, hw, Panel.loseWindow]

end

/-- Settles O44, by where the write stood: at a parameter, at an opcode by whether it was applied, and at a
lost receiver. -/
theorem cutCommandLosesPanel : Obligations.CutCommandLosesPanel := by
  refine ⟨fun p o n a x k got hr => ?_, ?_, fun p o n a x hr => lost_stays_lost n a x hr⟩
  · rw [unsure_parameter n a x hr]
    exact ⟨rfl, rfl⟩
  · rintro p o n ⟨_, b⟩ k hr rfl hn
    have hreceive : p.receive o n ⟨ctrlCmd, b⟩ = p.collect n k [] := receive_named n hr hn
    have hwindow := opensWindow_named hn
    have hmissed := unsure_not_applied (o := o) n ⟨ctrlCmd, b⟩ hr
    refine ⟨fun hcol hpage => ?_, fun hk => ?_, fun harity => ?_, fun harity => ?_⟩
    · rw [if_neg (by simp [hwindow, hcol, hpage])] at hmissed
      exact hmissed
    · rw [if_pos (hwindow.mpr hk)] at hmissed
      exact ⟨_, hmissed⟩
    · rw [collect_waits (got := []) n harity] at hreceive
      have hcut := unsure_applied_cut hr (congrArg Panel.rx hreceive)
      exact ⟨congrArg Panel.rx hcut, congrArg (·.ram) hcut⟩
    · obtain ⟨c, hc⟩ := command_of_arity_zero p.cfg harity
      rw [collect_done (got := []) n harity.symm hc] at hreceive
      have hwhole := (unsure_applied_whole hr (congrArg Panel.rx hreceive)).trans hreceive
      exact ⟨congrArg Panel.rx hwhole, congrArg (·.ram) hwhole⟩

end Sys2Proof.Machine
end

section
/-! One register write with its loop around it, by the Transport's answer, and the instructions and steps that
are such a write (41_command_table R79, 43_address_window R122, 44_display_controller R133). -/

namespace Sys2Proof.Machine

/-! ### Which instruction a step runs -/

section
variable {s : State} {h : Nat}

theorem nextAction_of_writing (hs : s.Writing h) : nextAction s = nextEntry s := by
  obtain ⟨hbusy, hhung, hraised, hopk, -⟩ := hs
  cases ho : s.opk with
  | none => exact absurd ho hopk
  | init | update => simp [nextAction, hbusy, hhung, hraised, ho]

theorem writing_of_sending (hs : s.sending h) : s.Writing h := by
  obtain ⟨hbusy, hhung, hraised, hopk, -, hhnd⟩ := hs
  exact ⟨hbusy, hhung, hraised, hopk, hhnd⟩

theorem step_of_request {r : HostRequest} {rest : List HostRequest} {i : Instr}
    (hb : s.busy = false) (hh : s.hung = false) (hq : s.reqs = r :: rest)
    (hd : decodeHost s.par.ops.host r = some i) : step s = exec i { s with reqs := rest } := by
  simp [step, nextAction, nextRequest, hb, hh, hq, hd]

theorem step_of_decoded {i : Instr} {rest : List Xact} (hs : s.sending h)
    (hd : decodeWire s.par.ops s.queue = .ok i rest) : step s = exec i { s with queue := rest } := by
  have hnext := nextAction_of_writing (writing_of_sending hs)
  obtain ⟨-, -, -, -, hc, -⟩ := hs
  cases hq : s.queue with
  | nil => simp [hq, decodeWire] at hd
  | cons x xs =>
    rw [hq] at hd
    simp only [step, hnext, nextEntry, hc, hq, hd]

theorem step_of_undecoded {x : Xact} {rest : List Xact} {why : DecodeError}
    (hs : s.sending h) (hq : s.queue = x :: rest) (hd : decodeWire s.par.ops s.queue = .reject why) :
    step s = sendByte x { s with queue := rest } := by
  have hnext := nextAction_of_writing (writing_of_sending hs)
  obtain ⟨-, -, -, -, hc, -⟩ := hs
  rw [hq] at hd
  simp only [step, hnext, nextEntry, hc, hq, hd]

/-! ### What a register write with its loop does -/

theorem write_sameHost (x : Xact) : SameHost s (acknowledge x (transportWrite h x s)) := by
  simp [SameHost]

theorem write_sameController (x : Xact) : SameController s (acknowledge x (transportWrite h x s)) := by
  simp [SameController]

theorem write_sameEncoder (x : Xact) : SameEncoder s (acknowledge x (transportWrite h x s)) := by
  simp [SameEncoder, State.pbByte]

theorem write_acknowledged (x : Xact) (ha : s.answer = .ok) :
    OneCall s (acknowledge x (transportWrite h x s)) (.write h x .acknowledged) ∧
    (acknowledge x (transportWrite h x s)).seq = s.seq + 1 ∧
    (acknowledge x (transportWrite h x s)).raised = s.raised := by
  rw [transportWrite_ok h x ha, acknowledge_ok rfl]
  exact ⟨⟨rfl, rfl, rfl, rfl, rfl⟩, rfl, rfl⟩

theorem write_failed (x : Xact) {a : Bool} (ha : s.answer = .fail a) :
    OneCall s (acknowledge x (transportWrite h x s)) (.write h x .failed) ∧
    (acknowledge x (transportWrite h x s)).seq = s.seq ∧
    (acknowledge x (transportWrite h x s)).raised = some x ∧
    (acknowledge x (transportWrite h x s)).hung = s.hung ∧
    (acknowledge x (transportWrite h x s)).panel = s.panel.unsure s.par.ops s.draws a x := by
  rw [transportWrite_fail h x ha, acknowledge_error rfl]
  exact ⟨⟨rfl, rfl, rfl, rfl, rfl⟩, rfl, rfl, rfl, rfl⟩

/-- On a failure the page-stride counters stand still, and SEND_FRAME's loop does what SEND_CMD's does. -/
theorem strideStep_failed (x : Xact) {a : Bool} (ha : s.answer = .fail a) :
    strideStep x (transportWrite h x s) = acknowledge x (transportWrite h x s) := by
  rw [transportWrite_fail h x ha]
  rfl

/-! ### Commands and data writes that fail -/

theorem commandXacts_injective {op op' : Byte} {ps ps' : List Byte}
    (h : commandXacts op ps = commandXacts op' ps') : op = op' ∧ ps = ps' := by
  have hinj : Function.Injective fun b : Byte => (⟨ctrlCmd, b⟩ : Xact) := fun _ _ hb => congrArg Xact.byte hb
  simpa using hinj.list_map h

/-- An instruction that is encoded as a command is SEND_CMD of its opcode and parameters
(41_command_table R79). -/
theorem exec_of_encode_command {i : Instr} {op : Byte} {ps : List Byte}
    (hi : encode s.par.ops i = .wire (commandXacts op ps)) : exec i s = sendCommand op ps s := by
  cases i <;> simp only [encode, Words.wire.injEq, reduceCtorEq] at hi
  case data d => simp [commandXacts, Ne.symm ctrlCmd_ne_ctrlData] at hi
  all_goals
    obtain ⟨rfl, rfl⟩ := commandXacts_injective hi
    rfl

theorem exec_data_opened (d : Byte) (hh : s.hnd = .opened h) :
    exec (.data d) s = .next (strideStep ⟨ctrlData, d⟩ (transportWrite h ⟨ctrlData, d⟩ s)) := by
  simp only [exec, execData, writeRegister_opened _ hh, thenDo_next]

end

/-! ### The statements -/

/-- Settles O17: a request, a decoded entry, an undecoded one. -/
theorem stepRunsDecodedInstruction : Obligations.StepRunsDecodedInstruction :=
  ⟨fun _ _ _ _ => step_of_request, fun _ _ _ _ => step_of_decoded, fun _ _ _ _ _ => step_of_undecoded⟩

/-- Settles O18: the step is one register write with SEND_CMD's loop around it, by the Transport's
answer. -/
theorem stepResumesCommand : Obligations.StepResumesCommand := by
  intro s h b rest hbusy hhung hraised hopk hhnd hc
  have hstep := step_resume hbusy hhung hraised hopk hhnd hc
  refine ⟨fun ha => ?_, fun a ha => ?_⟩
  · obtain ⟨hcall, hseq, hkept⟩ :=
      write_acknowledged (s := { s with cmdRest := rest }) (h := h) ⟨ctrlCmd, b⟩ ha
    exact ⟨_, hstep, hcall, hseq, hkept.trans hraised, by simp, by simp, write_sameHost _,
      write_sameController _, write_sameEncoder _⟩
  · obtain ⟨hcall, hseq, hfailed, -⟩ :=
      write_failed (s := { s with cmdRest := rest }) (h := h) ⟨ctrlCmd, b⟩ ha
    exact ⟨_, hstep, hcall, hseq, hfailed, by simp, by simp, write_sameHost _,
      write_sameController _, write_sameEncoder _⟩

/-- Settles O43: the instruction is SEND_CMD, which fails at its opcode. -/
theorem commandWriteFailureIsRaised : Obligations.CommandWriteFailureIsRaised := by
  intro i op ps s h a hi hhnd ha
  have hexec : exec i s = sendCommand op ps s := by
    rcases hi with rfl | hi
    · rfl
    · exact exec_of_encode_command hi
  obtain ⟨hcall, hseq, hraised, hhung, hpanel⟩ :=
    write_failed (s := { s with cmdRest := ps ++ s.cmdRest }) (h := h) ⟨ctrlCmd, op⟩ ha
  refine ⟨_, hexec.trans (sendByte_opened _ hhnd), hraised, hseq, hcall, hhung, fun hrx hop k => ?_,
    write_sameHost _, write_sameController _, write_sameEncoder _⟩
  rw [State.ramByte, hpanel, unsure_opcode_ram s.draws a hrx hop, State.ramByte]

/-- Settles O46: a failed write, read back from the panel. -/
theorem dataWriteFailure : Obligations.DataWriteFailure := by
  intro d s h a hhnd hrx hmode ha
  have hexec := exec_data_opened d hhnd
  rw [strideStep_failed _ ha] at hexec
  obtain ⟨hcall, hseq, hraised, -, hpanel⟩ := write_failed (h := h) ⟨ctrlData, d⟩ ha
  refine ⟨_, hexec, hcall, hraised, hseq, by simp, by simp, by simp, ?_, fun k hk => ?_,
    write_sameHost _, write_sameController _⟩
  · rw [State.ramByte, hpanel, unsure_data_read hrx hmode]
    simp [State.ramByte]
  · rw [State.ramByte, hpanel, unsure_data_read hrx hmode]
    simp [State.ramByte, hk]

end Sys2Proof.Machine
end

section
/-! The place of a pixel in the PageBuffer (20_memory R35 to R37), and that ENCODE puts it there. -/

namespace Sys2Proof.Machine

theorem exec_encode {surf : Surface} (hz : panelSized surf = true) (s : State) :
    exec (.encode surf) s = .next { s with
      pb := some (encodeBuffer surf)
      pg := 7
      col := 127
      acc := packByte surf 7 127
      ret := .ok } := by
  simp [exec, execEncode, hz]

/-- ENCODE fills every index of the PageBuffer (42_frame_encoder R111). -/
theorem exec_encode_pbByte {surf : Surface} (hz : panelSized surf = true) (s : State) :
    ∃ t, exec (.encode surf) s = .next t ∧
      ∀ i < 1024, t.pbByte i = some (packByte surf (i / 128) (i % 128)) :=
  ⟨_, exec_encode hz s, read_encodeBuffer surf⟩

/-- The byte at the index of pixel `(x, y)` has the pixel's class in the pixel's bit (20_memory R36). -/
theorem packByte_pixel (surf : Surface) {x : Nat} (hx : x < 128) (y : Nat) :
    (packByte surf ((y / 8 * 128 + x) / 128) ((y / 8 * 128 + x) % 128)).getLsbD (y % 8) =
      ink (readPixel surf x y) := by
  have hpage : (y / 8 * 128 + x) / 128 = y / 8 := by omega
  have hcol : (y / 8 * 128 + x) % 128 = x := by omega
  rw [hpage, hcol, packByte_getLsbD surf _ _ _ (by omega), Nat.div_add_mod']

/-- Settles O27. -/
theorem encodePacksEveryPixel : Obligations.EncodePacksEveryPixel := by
  intro surf s hz
  obtain ⟨t, ht, hpb⟩ := exec_encode_pbByte hz s
  exact ⟨t, ht, fun x y hx hy => ⟨_, hpb _ (by omega), packByte_pixel surf hx y⟩⟩

/-- The index and the bit number of a pixel as bit fields (20_memory R37). -/
theorem pixelIndex_bits (x : BitVec 7) (y : BitVec 6) :
    pixelIndex x.toNat y.toNat = (y.extractLsb' 3 3 ++ x).toNat := by
  have hy := y.isLt
  rw [BitVec.toNat_append, ← Nat.shiftLeft_add_eq_or_of_lt x.isLt, BitVec.extractLsb'_toNat,
    Nat.shiftLeft_eq, Nat.shiftRight_eq_div_pow, pixelIndex, pageIndex]
  omega

theorem pixelBit_bits (y : BitVec 6) : pixelBit y.toNat = (y.extractLsb' 0 3).toNat := by
  simp [pixelBit]

theorem pixelIndex_le (x : BitVec 7) (y : BitVec 6) : pixelIndex x.toNat y.toNat ≤ 1023 := by
  have hx := x.isLt
  have hy := y.isLt
  simp only [pixelIndex, pageIndex]
  omega

/-- Every bit of the PageBuffer is the place of exactly one pixel (20_memory R37). -/
theorem existsUnique_pixel {i n : Nat} (hi : i < 1024) (hn : n < 8) :
    ∃! p : BitVec 7 × BitVec 6, pixelIndex p.1.toNat p.2.toNat = i ∧ pixelBit p.2.toNat = n := by
  simp only [pixelIndex, pageIndex, pixelBit]
  refine ⟨(BitVec.ofNat 7 (i % 128), BitVec.ofNat 6 (i / 128 * 8 + n)), ?_, ?_⟩
  · simp only [BitVec.toNat_ofNat]
    omega
  · rintro ⟨x, y⟩ ⟨hindex, hbit⟩
    have hx := x.isLt
    refine Prod.ext (BitVec.eq_of_toNat_eq ?_) (BitVec.eq_of_toNat_eq ?_)
    · simp only [BitVec.toNat_ofNat] at hindex ⊢
      omega
    · simp only [BitVec.toNat_ofNat] at hindex hbit ⊢
      omega

/-- Settles O33. -/
theorem pixelMapIsBijection : Obligations.PixelMapIsBijection := by
  refine ⟨fun x y => ⟨pixelIndex_bits x y, pixelBit_bits y, pixelIndex_le x y⟩,
    fun i n hi hn => ⟨existsUnique_pixel hi hn, fun surf s hz => ?_⟩⟩
  obtain ⟨t, ht, hpb⟩ := exec_encode_pbByte hz s
  exact ⟨t, _, ht, hpb i hi, packByte_getLsbD surf _ _ _ hn⟩

end Sys2Proof.Machine
end

section
/-! UPDATE from the start of its program (44_display_controller R129, R134): the window, the encode step, and
the frame as far as the Transport acknowledges it; then the complete step, or the abort of a torn frame
(43_address_window R126). -/

namespace Sys2Proof.Machine

/-! ### The panel receives the frame -/

/-- The panel takes data bytes in horizontal mode through a window that is the whole panel
(43_address_window R119), and its write position is `i`, which is 0 again after 1023. -/
structure Panel.Framing (p : Panel) (i : Nat) : Prop where
  rx : p.rx = .boundary
  memMode : p.cfg.memMode = 0x00
  colStart : p.cfg.colStart = 0
  colEnd : p.cfg.colEnd = 127
  pageStart : p.cfg.pageStart = 0
  pageEnd : p.cfg.pageEnd = 7
  addr : p.addr = i % 1024

/-- The configuration after the window commands: the window and the write position are new. -/
def windowedCfg (c : PanelCfg) : PanelCfg :=
  { c with colStart := 0, colEnd := 127, col := 0, pageStart := 0, pageEnd := 7, page := 0 }

theorem commands_windowCommands (c : PanelCfg) : c.commands windowCommands = some (windowedCfg c) := rfl

theorem receiveAll_windowStream {o : OpTable} (hd : o.distinct = true) {p : Panel} (n : Nat)
    (hrx : p.rx = .boundary) : p.receiveAll o n (windowStream o) = { p with cfg := windowedCfg p.cfg } :=
  receiveAll_flattenCommands hd (commands_arity .update) n hrx (commands_windowCommands p.cfg)

theorem framing_windowed {p : Panel} (hrx : p.rx = .boundary) (hm : p.cfg.memMode = 0x00) :
    Panel.Framing { p with cfg := windowedCfg p.cfg } 0 :=
  ⟨hrx, hm, rfl, rfl, rfl, rfl, rfl⟩

/-! Stepping the write position touches neither the mode nor the window. -/

@[simp] theorem advance_memMode (c : PanelCfg) : c.advance.memMode = c.memMode := by
  unfold PanelCfg.advance; split <;> rfl
@[simp] theorem advance_colStart (c : PanelCfg) : c.advance.colStart = c.colStart := by
  unfold PanelCfg.advance; split <;> rfl
@[simp] theorem advance_colEnd (c : PanelCfg) : c.advance.colEnd = c.colEnd := by
  unfold PanelCfg.advance; split <;> rfl
@[simp] theorem advance_pageStart (c : PanelCfg) : c.advance.pageStart = c.pageStart := by
  unfold PanelCfg.advance; split <;> rfl
@[simp] theorem advance_pageEnd (c : PanelCfg) : c.advance.pageEnd = c.pageEnd := by
  unfold PanelCfg.advance; split <;> rfl

theorem advance_inside {c : PanelCfg} (h : c.col ≠ c.colEnd) : c.advance = { c with col := c.col + 1 } :=
  if_neg h

theorem advance_wraps {c : PanelCfg} (h : c.col = c.colEnd) :
    c.advance = { c with
      col := c.colStart
      page := if c.page = c.pageEnd then c.pageStart else c.page + 1 } :=
  if_pos h

/-- Over the whole panel the write position steps to the next address (43_address_window R125): inside a
page, from the last page to the first, and from another page to the next. -/
theorem advance_pageIndex {c : PanelCfg} (hcolStart : c.colStart = 0) (hcolEnd : c.colEnd = 127)
    (hpageStart : c.pageStart = 0) (hpageEnd : c.pageEnd = 7) :
    pageIndex c.advance.page.toNat c.advance.col.toNat =
      (pageIndex c.page.toNat c.col.toNat + 1) % 1024 := by
  have hcol := c.col.isLt
  have hpage := c.page.isLt
  have hcolLast : c.col = c.colEnd ↔ c.col.toNat = 127 := by rw [hcolEnd, ← BitVec.toNat_inj]; rfl
  have hpageLast : c.page = c.pageEnd ↔ c.page.toNat = 7 := by rw [hpageEnd, ← BitVec.toNat_inj]; rfl
  by_cases hc : c.col = c.colEnd
  · rw [advance_wraps hc, hcolStart, hpageStart]
    have hc' := hcolLast.mp hc
    by_cases hp : c.page = c.pageEnd
    · rw [if_pos hp]
      simp [pageIndex, hc', hpageLast.mp hp]
    · have hp' := mt hpageLast.mpr hp
      simp [pageIndex, hp, hc']
      omega
  · rw [advance_inside hc]
    have hc' := mt hcolLast.mpr hc
    simp [pageIndex]
    omega

theorem Panel.Framing.store {p : Panel} {i : Nat} (hp : p.Framing i) (n : Nat) (b : Byte) :
    (p.store n b).Framing (i + 1) := by
  obtain ⟨hrx, hmode, hcolStart, hcolEnd, hpageStart, hpageEnd, haddr⟩ := hp
  rw [store_horizontal n b hmode]
  refine ⟨hrx, by simpa, by simpa, by simpa, by simpa, by simpa, ?_⟩
  rw [Panel.addr] at haddr ⊢
  rw [advance_pageIndex hcolStart hcolEnd hpageStart hpageEnd, haddr, Nat.mod_add_mod]

/-- A panel that stands at the frame's first position holds, after at most 1024 data bytes, these bytes from
position 0 on and elsewhere what it held. -/
theorem receiveAll_frame {o : OpTable} {p : Panel} (hp : p.Framing 0) (n : Nat) {bs : List Byte}
    (hlen : bs.length ≤ 1024) :
    (p.receiveAll o n (bs.map fun b => ⟨ctrlData, b⟩)).Framing bs.length ∧
    ∀ i, Memory.read (p.receiveAll o n (bs.map fun b => ⟨ctrlData, b⟩)).ram i =
      if i < bs.length then bs[i]? else Memory.read p.ram i := by
  induction bs using List.reverseRecOn with
  | nil => exact ⟨hp, fun i => rfl⟩
  | append_singleton bs b ih =>
    simp only [List.length_append, List.length_singleton] at hlen ⊢
    obtain ⟨hframing, hram⟩ := ih (by omega)
    have haddr := hframing.addr
    rw [Nat.mod_eq_of_lt (by omega)] at haddr
    rw [List.map_append, receiveAll_append, List.map_singleton, Panel.receiveAll, Panel.receiveAll,
      receive_data _ hframing.rx]
    refine ⟨hframing.store _ b, fun i => ?_⟩
    rw [store_horizontal _ b hframing.memMode, haddr]
    by_cases hi : i = bs.length
    · simp [hi, read_write_same]
    · rw [read_write_other _ b hi, hram]
      by_cases hlt : i < bs.length
      · rw [if_pos hlt, if_pos (by omega), List.getElem?_append_left hlt]
      · rw [if_neg hlt, if_neg (by omega)]

/-! ### The steps of an UPDATE that are no acknowledged write -/

section
variable {s t u : State} {h k : Nat} {surf : Surface}

theorem unsent_eq_nil : s.unsent = [] ↔ s.cmdRest = [] ∧ s.queue = [] := by
  simp [State.unsent]

/-- The encode step (44_display_controller R133). -/
theorem step_encodeFrame (hs : s.Writing h) (ho : s.opk = .update) (hu : s.unsent = []) (hpb : s.pb = none)
    (hsurf : s.surf = some surf) (hz : panelSized surf = true) :
    step s = .next (expand (frameStream (encodeBuffer surf))
      { s with
        pb := some (encodeBuffer surf)
        pg := 0
        col := 0
        acc := packByte surf 7 127
        ret := .ok }) := by
  obtain ⟨hc, hq⟩ := unsent_eq_nil.mp hu
  have hnext : nextAction s = .encodeFrame surf := by
    rw [nextAction_of_writing hs]
    simp only [nextEntry, hc, hq, ho, hpb, hsurf]
  simp only [step, hnext, exec_encode hz]
  rfl

/-- With its frame sent, an UPDATE completes (44_display_controller R133). -/
theorem step_complete_update (hs : s.Writing h) (ho : s.opk = .update) (hu : s.unsent = [])
    (hpb : s.pb ≠ none) : step s = .next (finish .update .ok s) := by
  obtain ⟨hc, hq⟩ := unsent_eq_nil.mp hu
  obtain ⟨m, hm⟩ := Option.ne_none_iff_exists'.mp hpb
  have hnext : nextAction s = .complete := by
    rw [nextAction_of_writing hs]
    simp only [nextEntry, hc, hq, ho, hm]
  simp only [step, hnext, completeOperation, ho]

/-- The abort of an UPDATE (60_exceptions R155). -/
theorem step_abort_update {x : Xact} (hb : s.busy = true) (hh : s.hung = false) (hr : s.raised = some x)
    (ho : s.opk = .update) : step s = .next (finish .update (.transportWriteError s.seq x) s) := by
  have hnext : nextAction s = .abort x := by simp [nextAction, hb, hh, hr]
  simp only [step, hnext, abortOperation, ho]

/-- The write step with a failed write (44_display_controller R133). -/
theorem step_failed (hs : s.Writing h) {x : Xact} {xs : List Xact} {a : Bool} (hu : s.unsent = x :: xs)
    (ha : s.answer = .fail a) :
    ∃ t, step s = .next t ∧ OneCall s t (.write h x .failed) ∧ t.seq = s.seq ∧ t.raised = some x ∧
      t.hung = s.hung ∧ t.panel = s.panel.unsure s.par.ops s.draws a x ∧ SameHost s t ∧
      SameController s t := by
  obtain ⟨r, q, -, hstep⟩ := step_send hs.busy hs.hung hs.raised hs.opk hs.hnd hu
  rw [strideStep_failed x (s := { s with queue := q, cmdRest := r }) ha, or_self] at hstep
  obtain ⟨hcall, hseq, hraised, hhung, hpanel⟩ :=
    write_failed (s := { s with queue := q, cmdRest := r }) (h := h) x ha
  exact ⟨_, hstep, hcall, hseq, hraised, hhung, hpanel, write_sameHost _, write_sameController _⟩

/-! ### An UPDATE inside its frame -/

/-- `t` is the UPDATE of `surf` that started its program in `s`, after the window writes, the encode step
and the first `k` data writes, all acknowledged. -/
structure FrameSent (h : Nat) (surf : Surface) (k : Nat) (s t : State) : Prop where
  writing : t.Writing h
  opk : t.opk = .update
  pb : t.pb ≠ none
  unsent : t.unsent = (frameStream (encodeBuffer surf)).drop k
  seq : t.seq = 6 + k
  trace : t.trace = s.trace ++
    ((updateStream s.par.ops surf).take (6 + k)).map fun x => .write h x .acknowledged
  script : s.script = List.replicate (6 + k) .ok ++ t.script
  st : t.st = s.st
  replies : t.replies = s.replies
  framing : t.panel.Framing k
  ram : ∀ i, t.ramByte i = if i < k then some (packByte surf (i / 128) (i % 128)) else s.ramByte i

theorem updateStream_take (o : OpTable) (surf : Surface) (k : Nat) :
    (updateStream o surf).take (6 + k) = windowStream o ++ (frameStream (encodeBuffer surf)).take k := by
  simp [updateStream, List.take_append, List.take_of_length_le]

theorem frameStream_getElem? (surf : Surface) {i : Nat} (hi : i < 1024) :
    (frameStream (encodeBuffer surf))[i]? = some ⟨ctrlData, packByte surf (i / 128) (i % 128)⟩ := by
  rw [frameStream_encodeBuffer, List.getElem?_map, encodeBytes_getElem? surf i hi, Option.map_some]

theorem updateStream_getElem? (o : OpTable) (surf : Surface) {i : Nat} (hi : i < 1024) :
    (updateStream o surf)[6 + i]? = some ⟨ctrlData, packByte surf (i / 128) (i % 128)⟩ := by
  rw [updateStream, List.getElem?_append_right (by simp), windowStream_length, Nat.add_sub_cancel_left,
    frameStream_getElem? surf hi]

theorem FrameSent.unsent_cons (hf : FrameSent h surf k s t) (hk : k < 1024) :
    t.unsent = ⟨ctrlData, packByte surf (k / 128) (k % 128)⟩ ::
      (frameStream (encodeBuffer surf)).drop (k + 1) := by
  obtain ⟨hlt, hx⟩ := List.getElem?_eq_some_iff.mp (frameStream_getElem? surf hk)
  rw [hf.unsent, List.drop_eq_getElem_cons hlt, hx]

/-- The six window writes and the encode step. -/
theorem run_to_frame {as : List Answer} (hs : s.Writing h) (ho : s.opk = .update) (hseq : s.seq = 0)
    (hu : s.unsent = windowStream s.par.ops) (hpb : s.pb = none) (hsurf : s.surf = some surf)
    (hz : panelSized surf = true) (hready : s.panelReady) (hmode : s.panel.cfg.memMode = 0x00)
    (hscript : s.script = List.replicate 6 .ok ++ as) :
    ∃ t : State, core.run 7 s = .next t ∧ FrameSent h surf 0 s t := by
  obtain ⟨hrx, hdistinct⟩ := hready
  obtain ⟨t, hrun, hack⟩ := run_acknowledged hs (xs := windowStream s.par.ops) (rest := [])
    (by simpa using hu) (by simpa using hscript)
  rw [windowStream_length] at hrun
  have hdone : t.unsent = [] := by simpa [hu] using hack.unsent
  have hwriting := hack.writing hs
  have hlast := step_encodeFrame hwriting (hack.opk.trans ho) hdone (hack.pb.trans hpb)
    (hack.surf.trans hsurf) hz
  have hpanel := hack.panel
  rw [receiveAll_windowStream hdistinct s.draws hrx] at hpanel
  obtain ⟨hc, hq⟩ := unsent_eq_nil.mp hdone
  refine ⟨_, (run_add (m := 1) hrun).trans (run_one hlast), ?_⟩
  exact {
    writing := ⟨hwriting.busy, hwriting.hung, hwriting.raised, hwriting.opk, hwriting.hnd⟩
    opk := hack.opk.trans ho
    pb := Option.some_ne_none _
    unsent := by simp [State.unsent, hc, hq]
    seq := by simpa [hseq] using hack.seq
    trace := by
      rw [updateStream_take, List.take_zero, List.append_nil]
      exact hack.trace
    script := by simpa using hack.script
    st := hack.st
    replies := hack.replies
    framing := by simpa [hpanel] using framing_windowed hrx hmode
    ram := fun i => by simp [State.ramByte, hpanel] }

/-- The data writes after the encode step. -/
theorem FrameSent.acknowledged (hf : FrameSent h surf 0 s t) (hk : k ≤ 1024)
    (hack : Acknowledged h ((frameStream (encodeBuffer surf)).take k) t u) : FrameSent h surf k s u := by
  have hbytes : (frameStream (encodeBuffer surf)).take k =
      ((encodeBytes surf).take k).map fun b => ⟨ctrlData, b⟩ := by
    rw [frameStream_encodeBuffer, List.map_take]
  have hlen : ((encodeBytes surf).take k).length = k := by simp [hk]
  obtain ⟨hframing, hram⟩ := receiveAll_frame (o := t.par.ops) hf.framing t.draws
    (bs := (encodeBytes surf).take k) (by omega)
  rw [← hbytes, ← hack.panel, hlen] at hframing hram
  exact {
    writing := hack.writing hf.writing
    opk := hack.opk.trans hf.opk
    pb := hack.pb ▸ hf.pb
    unsent := by
      have hsplit := hack.unsent
      rw [hf.unsent, List.drop_zero] at hsplit
      exact (List.append_cancel_left ((List.take_append_drop k _).trans hsplit)).symm
    seq := by simp [hack.seq, hf.seq, hk]
    trace := by rw [hack.trace, hf.trace, updateStream_take, updateStream_take]; simp
    script := by
      rw [hf.script, hack.script]
      simp [hk, List.replicate_add]
    st := hack.st.trans hf.st
    replies := hack.replies.trans hf.replies
    framing := hframing
    ram := fun i => by
      rw [State.ramByte, hram]
      by_cases hi : i < k
      · rw [if_pos hi, if_pos hi, List.getElem?_take_of_lt hi, encodeBytes_getElem? surf i (by omega)]
      · rw [if_neg hi, if_neg hi]
        simpa [State.ramByte] using hf.ram i }

/-- An UPDATE up to data write `k`. -/
theorem run_frameSent {as : List Answer} (hs : s.sending h) (ho : s.opk = .update) (hseq : s.seq = 0)
    (hq : s.queue = windowStream s.par.ops) (hpb : s.pb = none) (hsurf : s.surf = some surf)
    (hz : panelSized surf = true) (hready : s.panelReady) (hmode : s.panel.cfg.memMode = 0x00)
    (hk : k ≤ 1024) (hscript : s.script = List.replicate (6 + k) .ok ++ as) :
    ∃ t : State, core.run (7 + k) s = .next t ∧ FrameSent h surf k s t ∧ t.script = as := by
  have hwriting := writing_of_sending hs
  obtain ⟨-, -, -, -, hc, -⟩ := hs
  obtain ⟨t, hrun, hf⟩ := run_to_frame (as := List.replicate k .ok ++ as) hwriting ho hseq
    (by simp [State.unsent, hc, hq]) hpb hsurf hz hready hmode
    (by rw [hscript, List.replicate_add, List.append_assoc])
  have hlen : ((frameStream (encodeBuffer surf)).take k).length = k := by simp [hk]
  have hts : t.script = List.replicate k .ok ++ as := by
    simpa [hscript, List.replicate_add] using hf.script.symm
  obtain ⟨u, hrun', hack⟩ := run_acknowledged hf.writing
    (xs := (frameStream (encodeBuffer surf)).take k) (rest := (frameStream (encodeBuffer surf)).drop k)
    (by simpa using hf.unsent) (as := as) (by rw [hlen, hts])
  rw [hlen] at hrun'
  have hfu := hf.acknowledged hk hack
  exact ⟨u, (run_add hrun).trans hrun', hfu, by simpa [hscript] using hfu.script.symm⟩

/-- Where data write `k` fails, position `k` alone may change (43_address_window R126). -/
theorem FrameSent.ramByte_of_failed (hf : FrameSent h surf k s t) (hk : k < 1024) {o : OpTable} {n : Nat}
    {a : Bool} {d : Byte} (hpanel : u.panel = t.panel.unsure o n a ⟨ctrlData, d⟩) (i : Nat) :
    u.ramByte i = if a ∧ i = k then some d else t.ramByte i := by
  have haddr := hf.framing.addr
  rw [Nat.mod_eq_of_lt hk] at haddr
  rw [State.ramByte, hpanel, unsure_data_read hf.framing.rx hf.framing.memMode, haddr, State.ramByte]

end

/-- Settles O57: the whole frame is sent, and the next step completes. -/
theorem updateShowsTheSurface : Obligations.UpdateShowsTheSurface := by
  intro s h surf as hs ho hseq hq hpb hsurf hz hready hmode hscript
  obtain ⟨t, hrun, hf, hrest⟩ := run_frameSent (k := 1024) hs ho hseq hq hpb hsurf hz hready hmode
    le_rfl (as := as) (by rw [hscript])
  have hdone : t.unsent = [] := hf.unsent.trans (List.drop_of_length_le (by simp))
  have hlast := step_complete_update hf.writing hf.opk hdone hf.pb
  have hlen : (updateStream s.par.ops surf).length = 1030 := by simp [updateStream]
  have htrace := hf.trace
  rw [List.take_of_length_le hlen.le] at htrace
  refine ⟨_, (run_add (m := 1) hrun).trans (run_one hlast), rfl, hf.st, hf.writing.hnd, rfl,
    ⟨rfl, hf.writing.hung, rfl, rfl, rfl, rfl, rfl⟩, hf.seq, hrest, htrace, hlen, ?_, fun x y hx hy => ?_⟩
  · exact congrArg (· ++ _) hf.replies
  · refine ⟨_, ?_, packByte_pixel surf hx y⟩
    exact (hf.ram _).trans (if_pos (by omega))

/-- Settles O58: the frame is sent up to data write `k`, which fails; the next step is the abort. -/
theorem tornFrameIsPrecise : Obligations.TornFrameIsPrecise := by
  intro s h surf k a as hs ho hseq hq hpb hsurf hz hready hmode hk hscript
  obtain ⟨t, hrun, hf, hrest⟩ := run_frameSent hs ho hseq hq hpb hsurf hz hready hmode hk.le hscript
  obtain ⟨u, hstep, ⟨-, -, -, htrace, -⟩, hsequ, hraised, hhung, hpanel, ⟨-, -, hreplies⟩,
    ⟨hst, hhnd, -, hbusy, hopk, -⟩⟩ := step_failed hf.writing (hf.unsent_cons hk) (answer_cons hrest)
  have hlast := step_abort_update (hbusy.trans hf.writing.busy) (hhung.trans hf.writing.hung) hraised
    (hopk.trans hf.opk)
  rw [hsequ, hf.seq] at hlast
  have hend : core.run (k + 9) s = .next (finish .update (.transportWriteError (6 + k)
      ⟨ctrlData, packByte surf (k / 128) (k % 128)⟩) u) := by
    rw [show k + 9 = 7 + k + (1 + 1) by omega, run_add hrun, run_add (run_one hstep), run_one hlast]
  have hram := hf.ramByte_of_failed hk hpanel
  refine ⟨_, _, hend, updateStream_getElem? s.par.ops surf hk, rfl, hst.trans hf.st,
    hhnd.trans hf.writing.hnd, rfl, ⟨rfl, hhung.trans hf.writing.hung, rfl, rfl, rfl, rfl, rfl⟩,
    congrArg (· ++ _) (hreplies.trans hf.replies), htrace.trans (congrArg (· ++ _) hf.trace),
    fun i hi => ?_, fun i hi => ?_, ?_⟩
  · exact (hram i).trans (by rw [if_neg (by omega), hf.ram, if_pos hi])
  · exact (hram i).trans (by rw [if_neg (by omega), hf.ram, if_neg (by omega)])
  · cases a with
    | false => exact .inl ((hram k).trans (by simp [hf.ram]))
    | true => exact .inr ((hram k).trans (by simp))

end Sys2Proof.Machine
end

section
/-! The encodings (30_encoding R55 to R68): the decoder and the encoder are each other's inverse, the core's
write programs stay in the closed repertoire, and what the default codes spell. -/

namespace Sys2Proof

/-! ### Decoding what the encoder writes -/

/-- An encoded instruction is a data write, or a command whose parameters decode to it behind its opcode. -/
theorem encode_wire_cases {o : OpTable} {i : Instr} {xs : List Xact} (h : encode o i = .wire xs) :
    (∃ d, i = .data d ∧ xs = [⟨ctrlData, d⟩]) ∨
    ∃ c ps, xs = commandXacts (o.op c) ps ∧
      ∀ rest, decodeCmd c ((ps.map fun b => ⟨ctrlCmd, b⟩) ++ rest) = .ok i rest := by
  cases i <;> cases h
  case data d => exact .inl ⟨d, rfl, rfl⟩
  all_goals right
  case dispoff => exact ⟨.dispoff, [], rfl, fun _ => rfl⟩
  case clkdiv p => exact ⟨.clkdiv, [p], rfl, fun _ => rfl⟩
  case muxratio p => exact ⟨.muxratio, [p], rfl, fun _ => rfl⟩
  case dispoffset p => exact ⟨.dispoffset, [p], rfl, fun _ => rfl⟩
  case startline => exact ⟨.startline, [], rfl, fun _ => rfl⟩
  case chargepump p => exact ⟨.chargepump, [p], rfl, fun _ => rfl⟩
  case memmode p => exact ⟨.memmode, [p], rfl, fun _ => rfl⟩
  case segremap => exact ⟨.segremap, [], rfl, fun _ => rfl⟩
  case comscandec => exact ⟨.comscandec, [], rfl, fun _ => rfl⟩
  case compins p => exact ⟨.compins, [p], rfl, fun _ => rfl⟩
  case contrast p => exact ⟨.contrast, [p], rfl, fun _ => rfl⟩
  case precharge p => exact ⟨.precharge, [p], rfl, fun _ => rfl⟩
  case vcomdesel p => exact ⟨.vcomdesel, [p], rfl, fun _ => rfl⟩
  case resumeram => exact ⟨.resumeram, [], rfl, fun _ => rfl⟩
  case normaldisp => exact ⟨.normaldisp, [], rfl, fun _ => rfl⟩
  case scrolloff => exact ⟨.scrolloff, [], rfl, fun _ => rfl⟩
  case dispon => exact ⟨.dispon, [], rfl, fun _ => rfl⟩
  case coladdr first last => exact ⟨.coladdr, [first, last], rfl, fun _ => rfl⟩
  case pageaddr first last => exact ⟨.pageaddr, [first, last], rfl, fun _ => rfl⟩
  case invertdisp => exact ⟨.invertdisp, [], rfl, fun _ => rfl⟩
  case scrollon => exact ⟨.scrollon, [], rfl, fun _ => rfl⟩

theorem decodeWire_encode {o : OpTable} (hd : o.distinct = true) {i : Instr} {xs : List Xact}
    (h : encode o i = .wire xs) (rest : List Xact) : decodeWire o (xs ++ rest) = .ok i rest := by
  rcases encode_wire_cases h with ⟨d, rfl, rfl⟩ | ⟨c, ps, rfl, hparams⟩
  · exact decodeWire_data o d rest
  · exact (decodeWire_op hd c _).trans (hparams rest)

/-- Settles O13: an opcode of a distinct table is found, and the parameters behind it are its command's. -/
theorem decodeEncodeRoundTrip : Obligations.DecodeEncodeRoundTrip :=
  ⟨fun _ _ _ rest hd h => decodeWire_encode hd h rest, fun _ _ _ hd h => decodeHost_encode hd h⟩

end Sys2Proof

namespace Sys2Proof.Machine

/-- Settles O14: what decodes is a data write or a command, and these are what the encoder writes. -/
theorem encodeDecodeInverse : Obligations.EncodeDecodeInverse := by
  intro o ys i rest h
  rcases exec_of_decodeWire h with ⟨d, rfl, hys⟩ | ⟨op, ps, hys, henc, -⟩
  · exact ⟨[⟨ctrlData, d⟩], rfl, hys⟩
  · exact ⟨_, henc, hys⟩

/-! ### The closed repertoire -/

theorem ctrl_of_mem_flattenCommands {o : OpTable} {cs : List (Cmd × List Byte)} {x : Xact}
    (h : x ∈ flattenCommands o cs) : x.ctrl = ctrlCmd := by
  obtain ⟨c, -, hx⟩ := List.mem_flatMap.mp h
  obtain ⟨b, -, rfl⟩ := List.mem_map.mp hx
  rfl

/-- A transaction of the repertoire is a command byte or a data byte (30_encoding R56). -/
theorem ctrl_of_inRepertoire {o : OpTable} {x : Xact} (h : inRepertoire o x) :
    x.ctrl = ctrlCmd ∨ x.ctrl = ctrlData := by
  rcases h with hinit | hwindow | hdata
  · exact .inl (ctrl_of_mem_flattenCommands hinit)
  · exact .inl (ctrl_of_mem_flattenCommands hwindow)
  · exact .inr hdata

theorem ctrl_of_mem_frameStream {m : Memory} {x : Xact} (h : x ∈ frameStream m) : x.ctrl = ctrlData := by
  obtain ⟨b, -, rfl⟩ := List.mem_map.mp h
  rfl

/-- Every entry of a write program is of the repertoire. -/
theorem inRepertoire_of_mem_program {s : State} {x : Xact} (h : x ∈ s.program) :
    inRepertoire s.par.ops x := by
  unfold State.program at h
  split at h
  next => simp at h
  next => exact .inl h
  next =>
    split at h
    next =>
      rcases List.mem_append.mp h with hwindow | hframe
      · exact .inr (.inl hwindow)
      · exact .inr (.inr (ctrl_of_mem_frameStream hframe))
    next => exact .inr (.inl h)

/-- A history with one more call is in the repertoire where the call, if it is a write, is. -/
theorem traceInRepertoire_of_append {s t : State} {c : Call} (hs : s.traceInRepertoire)
    (hpar : t.par = s.par) (htrace : t.trace = s.trace ++ [c])
    (hc : ∀ h x w, c = .write h x w → inRepertoire s.par.ops x) : t.traceInRepertoire := by
  intro h x w hmem
  rw [hpar]
  rw [htrace, List.mem_append, List.mem_singleton] at hmem
  rcases hmem with hold | hnew
  · exact hs h x w hold
  · exact hc h x w hnew.symm

/-- Settles O10: of the effects on the bus only the write step's adds a write, and that is the entry of the
program at `SEQ`. -/
theorem traceStaysInRepertoire : Obligations.TraceStaysInRepertoire := by
  refine ⟨fun s t hs htrace hstep => ?_, fun o x => ctrl_of_inRepertoire⟩
  have hpar := step_par hstep
  obtain ⟨hhung, heff⟩ := step_busEffect hstep
  cases heff with
  | quiet hsame => exact fun h x w hmem => hpar ▸ htrace h x w (hsame ▸ hmem)
  | opened _ _ _ _ hcall | openFailed _ hcall | openUnanswered _ hcall | closed _ _ _ hcall =>
    exact traceInRepertoire_of_append htrace hpar hcall (by simp)
  | wrote k y v xs ho hr _ hunsent hcall =>
    have hentry := (hs.program_at_seq ho hhung hr hunsent).1
    refine traceInRepertoire_of_append htrace hpar hcall fun h x w hxw => ?_
    obtain ⟨-, rfl, -⟩ : k = h ∧ y = x ∧ v = w := by simpa using hxw
    exact inRepertoire_of_mem_program (List.mem_of_getElem? hentry)

/-! ### The default codes, and the reserved ones -/

/-- Settles O15, word by word. -/
theorem tableWordsDecode : Obligations.TableWordsDecode :=
  ⟨rfl, rfl, rfl, rfl, rfl, rfl, rfl⟩

/-- A code that is none of the five of 30_encoding R60 spells no operation. -/
theorem decodeHost_reserved {r : HostRequest} (h : r.code = 0b000 ∨ r.code = 0b110 ∨ r.code = 0b111) :
    decodeHost HostCodes.default r = none := by
  rcases h with hcode | hcode | hcode <;> simp [decodeHost, HostCodes.default, hcode]

/-- An idle core takes a request that spells no operation and does nothing with it (30_encoding R68). -/
theorem step_of_ignored {s : State} {r : HostRequest} {rest : List HostRequest} (hb : s.busy = false)
    (hh : s.hung = false) (hq : s.reqs = r :: rest) (hd : decodeHost s.par.ops.host r = none) :
    step s = .next { s with reqs := rest } := by
  simp [step, nextAction, nextRequest, hb, hh, hq, hd]

/-- Settles O16. -/
theorem reservedHostCodesIgnored : Obligations.ReservedHostCodesIgnored :=
  ⟨fun _ => decodeHost_reserved, fun _ _ _ => step_of_ignored⟩

end Sys2Proof.Machine
end

section
/-! The wire commands (41_command_table R79, R84 to R104): the opcode and the parameters are sent one a step,
and the panel has the command's effect with the last of them. -/

namespace Sys2Proof.Machine

/-! ### The bytes of a command, acknowledged one after the other -/

/-- `s` after the command bytes `bs` have been sent through handle `h` and acknowledged, with the bytes `rest`
of the command outstanding. -/
def State.afterBytes (s : State) (h : Nat) (bs rest : List Byte) : State :=
  { s with
    cmdRest := rest
    seq := s.seq + bs.length
    script := s.script.drop bs.length
    draws := s.draws + bs.length
    trace := s.trace ++ bs.map fun b => .write h ⟨ctrlCmd, b⟩ .acknowledged
    panel := s.panel.receiveAll s.par.ops s.draws (bs.map fun b => ⟨ctrlCmd, b⟩)
    ret := .ok }

section
variable {s : State} {h : Nat}

theorem afterBytes_append (bs cs r r' : List Byte) :
    (s.afterBytes h bs r).afterBytes h cs r' = s.afterBytes h (bs ++ cs) r' := by
  simp [State.afterBytes, receiveAll_append, Nat.add_assoc]

theorem afterBytes_writing (hs : s.Writing h) (bs rest : List Byte) : (s.afterBytes h bs rest).Writing h :=
  ⟨hs.busy, hs.hung, hs.raised, hs.opk, hs.hnd⟩

theorem afterBytes_sameHost (bs rest : List Byte) : SameHost s (s.afterBytes h bs rest) :=
  ⟨rfl, rfl, rfl⟩

theorem afterBytes_sameController (bs rest : List Byte) : SameController s (s.afterBytes h bs rest) :=
  ⟨rfl, rfl, rfl, rfl, rfl, rfl⟩

theorem afterBytes_sameEncoder (bs rest : List Byte) : SameEncoder s (s.afterBytes h bs rest) :=
  ⟨rfl, rfl, rfl, Iff.rfl, fun _ => rfl⟩

theorem afterBytes_oneCall (b : Byte) (rest : List Byte) :
    OneCall s (s.afterBytes h [b] rest) (.write h ⟨ctrlCmd, b⟩ .acknowledged) :=
  ⟨List.drop_one, rfl, rfl, rfl, rfl⟩

theorem afterBytes_panel_singleton (b : Byte) (rest : List Byte) :
    (s.afterBytes h [b] rest).panel = s.panel.receive s.par.ops s.draws ⟨ctrlCmd, b⟩ :=
  rfl

/-- One byte more is one call more. -/
theorem afterBytes_snoc_oneCall (bs : List Byte) (b : Byte) (r rest : List Byte) :
    OneCall (s.afterBytes h bs r) (s.afterBytes h (bs ++ [b]) rest)
      (.write h ⟨ctrlCmd, b⟩ .acknowledged) := by
  rw [← afterBytes_append bs [b] r rest]
  exact afterBytes_oneCall b rest

/-- A register write of a command byte with SEND_CMD's loop around it, acknowledged. -/
theorem acknowledge_write_ok (b : Byte) (rest : List Byte) (ha : s.answer = .ok) :
    acknowledge ⟨ctrlCmd, b⟩ (transportWrite h ⟨ctrlCmd, b⟩ { s with cmdRest := rest }) =
      s.afterBytes h [b] rest := by
  rw [transportWrite_ok (s := { s with cmdRest := rest }) h _ ha, acknowledge_ok rfl]
  simp [State.afterBytes, State.drawn, Panel.receiveAll]

/-- SEND_CMD sends the opcode and leaves the parameters outstanding (41_command_table R79). -/
theorem sendCommand_acknowledged (op : Byte) (ps : List Byte) (hh : s.hnd = .opened h)
    (ha : s.answer = .ok) : sendCommand op ps s = .next (s.afterBytes h [op] (ps ++ s.cmdRest)) := by
  rw [sendCommand, sendByte_opened (s := { s with cmdRest := ps ++ s.cmdRest }) _ hh,
    acknowledge_write_ok op _ ha]

/-- The step inside a command sends its next byte. -/
theorem step_afterBytes (hs : s.Writing h) {bs : List Byte} {as : List Answer}
    (ha : s.script.drop bs.length = .ok :: as) (b : Byte) (rest : List Byte) :
    step (s.afterBytes h bs (b :: rest)) = .next (s.afterBytes h (bs ++ [b]) rest) := by
  have ht := afterBytes_writing hs bs (b :: rest)
  rw [step_resume ht.busy ht.hung ht.raised ht.opk ht.hnd rfl,
    acknowledge_write_ok b rest (answer_cons ha), afterBytes_append]

/-- As many steps as there are bytes outstanding send them all. -/
theorem run_afterBytes (hs : s.Writing h) {as : List Answer} (bs ps : List Byte)
    (ha : s.script.drop bs.length = List.replicate ps.length .ok ++ as) :
    core.run ps.length (s.afterBytes h bs ps) = .next (s.afterBytes h (bs ++ ps) []) := by
  induction ps generalizing bs with
  | nil => simp [Host.Core.run]
  | cons b ps ih =>
    have hstep := step_afterBytes hs (bs := bs) ha b ps
    have hdrop : s.script.drop (bs ++ [b]).length = List.replicate ps.length .ok ++ as := by
      rw [List.length_append, ← List.drop_drop, ha]
      rfl
    rw [List.length_cons, Nat.add_comm, run_add (run_one hstep), ih (bs ++ [b]) hdrop, List.append_assoc,
      List.singleton_append]

end

/-! ### What the panel receives -/

/-- Inside a command the panel waits for the parameters that are missing, and nothing else has changed. -/
theorem receiveAll_cut {o : OpTable} (hd : o.distinct = true) {k : Cmd} {got : List Byte} {p : Panel} (n : Nat)
    (hrx : p.rx = .boundary) (hlen : got.length < k.arity) :
    p.receiveAll o n (commandXacts (o.op k) got) = { p with rx := .param k got } := by
  induction got using List.reverseRecOn with
  | nil =>
    rw [commandXacts, List.map_singleton, Panel.receiveAll, receive_opcode n hrx hd, collect_waits n hlen,
      Panel.receiveAll]
  | append_singleton got b ih =>
    rw [List.length_append, List.length_singleton] at hlen
    have happend : commandXacts (o.op k) (got ++ [b]) = commandXacts (o.op k) got ++ [⟨ctrlCmd, b⟩] := by
      simp [commandXacts]
    rw [happend, receiveAll_append, ih (by omega), Panel.receiveAll, receive_parameter _ rfl,
      collect_waits _ (by simpa using hlen), Panel.receiveAll]

/-- Instruction `i` is encoded as the command `c` with the parameters `ps`, and the command's effect on the
panel's configuration is `f`. -/
structure Sends (i : Instr) (c : Cmd) (ps : List Byte) (f : PanelCfg → PanelCfg) : Prop where
  encode : ∀ o, encode o i = .wire (commandXacts (o.op c) ps)
  arity : ps.length = c.arity
  effect : ∀ cfg : PanelCfg, cfg.command c ps = some (f cfg)

theorem sends_of_mem_oneByteCommands : ∀ e ∈ oneByteCommands, Sends e.1 e.2.1 [] e.2.2 := by
  simp only [oneByteCommands, List.forall_mem_cons, List.not_mem_nil, false_implies, implies_true, and_true]
  and_intros <;> exact ⟨fun _ => rfl, rfl, fun _ => rfl⟩

theorem sends_of_mem_twoByteCommands (p : Byte) : ∀ e ∈ twoByteCommands p, Sends e.1 e.2.1 [p] e.2.2 := by
  simp only [twoByteCommands, List.forall_mem_cons, List.not_mem_nil, false_implies, implies_true, and_true]
  and_intros <;> exact ⟨fun _ => rfl, rfl, fun _ => rfl⟩

theorem sends_of_mem_threeByteCommands :
    ∀ e ∈ threeByteCommands, Sends e.1 e.2.1 [e.2.2.1, e.2.2.2.1] e.2.2.2.2 := by
  simp only [threeByteCommands, List.forall_mem_cons, List.not_mem_nil, false_implies, implies_true, and_true]
  and_intros <;> exact ⟨fun _ => rfl, rfl, fun _ => rfl⟩

section
variable {i : Instr} {c : Cmd} {ps : List Byte} {f : PanelCfg → PanelCfg} {s : State} {h : Nat}

/-- The instruction's own step: its opcode, with its parameters outstanding. -/
theorem Sends.exec (hi : Sends i c ps f) (hh : s.hnd = .opened h) (ha : s.answer = .ok) :
    exec i s = .next (s.afterBytes h [s.par.ops.op c] (ps ++ s.cmdRest)) := by
  rw [exec_of_encode_command (hi.encode s.par.ops), sendCommand_acknowledged _ _ hh ha]

/-- With its last byte the command has its effect on the panel, and no other. -/
theorem Sends.panel_done (hi : Sends i c ps f) (hp : s.panelReady) (rest : List Byte) :
    (s.afterBytes h (s.par.ops.op c :: ps) rest).panel = { s.panel with cfg := f s.panel.cfg } := by
  obtain ⟨hrx, hd⟩ := hp
  exact receiveAll_commandXacts hd s.draws hrx hi.arity (hi.effect _)

/-- Before its last byte the panel waits, with its configuration unchanged. -/
theorem Sends.panel_waits (hi : Sends i c ps f) (hp : s.panelReady) {got : List Byte}
    (hlen : got.length < ps.length) (rest : List Byte) :
    (s.afterBytes h (s.par.ops.op c :: got) rest).panel = { s.panel with rx := .param c got } := by
  obtain ⟨hrx, hd⟩ := hp
  exact receiveAll_cut hd s.draws hrx (hi.arity ▸ hlen)

end

/-! ### The statements about the 21 commands -/

/-- Settles O39: the opcode is the whole command. -/
theorem oneByteCommandsComplete : Obligations.OneByteCommandsComplete := by
  intro i c f s h hmem hh hp ha
  have hi : Sends i c [] f := sends_of_mem_oneByteCommands _ hmem
  have hpanel := hi.panel_done (h := h) hp ([] ++ s.cmdRest)
  refine ⟨_, hi.exec hh ha, afterBytes_oneCall _ _, rfl, rfl, rfl, rfl, rfl, rfl, ?_, ?_, fun a => ?_,
    afterBytes_sameHost _ _, afterBytes_sameController _ _, afterBytes_sameEncoder _ _⟩
  · rw [hpanel]
  · rw [hpanel]
    exact hp.1
  · rw [State.ramByte, hpanel, State.ramByte]

/-- Settles O40: after the opcode the panel waits for the parameter, and with it the command is complete. -/
theorem twoByteCommandsComplete : Obligations.TwoByteCommandsComplete := by
  intro p i c f s h as hmem hs hp hscript
  have hi : Sends i c [p] f := sends_of_mem_twoByteCommands p _ hmem
  have hwriting := writing_of_sending hs
  obtain ⟨-, hhung, hraised, -, hc, hh⟩ := hs
  have hexec := hi.exec hh (answer_cons hscript)
  rw [hc, List.append_nil] at hexec
  have hstep : step (s.afterBytes h [s.par.ops.op c] [p]) = .next (s.afterBytes h [s.par.ops.op c, p] []) :=
    step_afterBytes hwriting (as := as) (by rw [hscript]; rfl) p []
  have hwaits := hi.panel_waits (h := h) hp (got := []) Nat.zero_lt_one [p]
  have hdone := hi.panel_done (h := h) hp []
  refine ⟨_, _, hexec, hstep,
    afterBytes_oneCall _ _, rfl, rfl, rfl, hraised, hhung, ?_, ?_, fun a => ?_,
    afterBytes_sameHost _ _, afterBytes_sameController _ _, afterBytes_sameEncoder _ _,
    afterBytes_snoc_oneCall [_] p _ _, rfl, rfl, rfl, hraised, hhung, ?_, ?_, fun a => ?_,
    afterBytes_sameHost _ _, afterBytes_sameController _ _, afterBytes_sameEncoder _ _⟩
  · rw [hwaits]
  · rw [hwaits]
  · rw [State.ramByte, hwaits, State.ramByte]
  · rw [hdone]
  · rw [hdone]
    exact hp.1
  · rw [State.ramByte, hdone, State.ramByte]

/-- Settles O41: the opcode and the first operand leave the panel waiting, the second completes the command. -/
theorem threeByteCommandsComplete : Obligations.ThreeByteCommandsComplete := by
  intro i c a b f s h as hmem hs hp hscript
  have hi : Sends i c [a, b] f := sends_of_mem_threeByteCommands _ hmem
  have hwriting := writing_of_sending hs
  obtain ⟨-, hhung, hraised, -, hc, hh⟩ := hs
  have hexec := hi.exec hh (answer_cons hscript)
  rw [hc, List.append_nil] at hexec
  have hfirst : step (s.afterBytes h [s.par.ops.op c] [a, b]) =
      .next (s.afterBytes h [s.par.ops.op c, a] [b]) :=
    step_afterBytes hwriting (as := .ok :: as) (by rw [hscript]; rfl) a [b]
  have hsecond : step (s.afterBytes h [s.par.ops.op c, a] [b]) =
      .next (s.afterBytes h [s.par.ops.op c, a, b] []) :=
    step_afterBytes hwriting (as := as) (bs := [_, _]) (by rw [hscript]; rfl) b []
  have hopcode := hi.panel_waits (h := h) hp (got := []) Nat.zero_lt_two [a, b]
  have hinside := hi.panel_waits (h := h) hp (got := [a]) Nat.one_lt_two [b]
  have hdone := hi.panel_done (h := h) hp []
  refine ⟨_, _, _, hexec, hfirst, hsecond, afterBytes_oneCall _ _, rfl, afterBytes_snoc_oneCall [_] a _ _, rfl,
    afterBytes_snoc_oneCall [_, a] b _ _, rfl, rfl, rfl, rfl, rfl, hraised, hhung, ?_, ?_, ?_, ?_, fun k => ?_,
    afterBytes_sameHost _ _, afterBytes_sameController _ _, afterBytes_sameEncoder _ _⟩
  · rw [hopcode]
  · rw [hinside]
  · rw [hdone]
  · rw [hdone]
    exact hp.1
  · rw [State.ramByte, hdone, State.ramByte]

/-! ### SEND_CMD, and the operands inside an opcode -/

section
variable {p : Panel}

/-- A byte of the catalogue that is a whole command. -/
theorem receive_oneByte {o : OpTable} (hd : o.distinct = true) (n : Nat) (hrx : p.rx = .boundary) {k : Cmd}
    {c : PanelCfg} (hk : k.arity = 0) (hc : p.cfg.command k [] = some c) :
    p.receive o n ⟨ctrlCmd, o.op k⟩ = { p with cfg := c } :=
  receiveAll_commandXacts hd (ps := []) n hrx hk.symm hc

/-- A byte outside the catalogue that carries its operand inside the opcode. -/
theorem receive_embedded {o : OpTable} (n : Nat) (hrx : p.rx = .boundary) {b : Byte}
    {f : PanelCfg → PanelCfg} (hb : o.named b = []) (hf : embeddedSettings o b = [f]) :
    p.receive o n ⟨ctrlCmd, b⟩ = { p with cfg := f p.cfg } := by
  rw [← opcode_embedded n hb hf]
  simp [Panel.receive, hrx]

/-- Among the default opcodes only OP_STARTLINE itself has the form `0b01LLLLLL`. -/
theorem named_startLine :
    ∀ l < 64, l ≠ 0 → OpTable.default.named (BitVec.ofNat 8 (0b01000000 + l)) = [] := by decide

/-- The byte `0b01LLLLLL` is of no other family, and what it carries is `L`. -/
theorem embeddedSettings_startLine (l : Nat) (hl : l < 64) :
    embeddedSettings OpTable.default (BitVec.ofNat 8 (0b01000000 + l)) =
      [fun c => { c with startLine := BitVec.ofNat 6 l }] := by
  have hbits : ∀ l < 64,
      BitVec.ofNat 8 (0b01000000 + l) ^^^ OpTable.default.startline < 0x40 ∧
      (BitVec.ofNat 8 (0b01000000 + l) ^^^ OpTable.default.startline).setWidth 6 = BitVec.ofNat 6 l ∧
      BitVec.ofNat 8 (0b01000000 + l) ≠ OpTable.default.segremap ^^^ 0x01 ∧
      BitVec.ofNat 8 (0b01000000 + l) ≠ OpTable.default.comscandec ^^^ 0x08 ∧
      BitVec.ofNat 8 (0b01000000 + l) ≠ OpTable.default.resumeram ^^^ 0x01 := by decide
  obtain ⟨hfamily, hoperand, hsegremap, hcomscandec, hresumeram⟩ := hbits l hl
  rw [embeddedSettings, if_pos hfamily, if_neg hsegremap, if_neg hcomscandec, if_neg hresumeram, hoperand]
  rfl

theorem receive_startLine (n : Nat) (hrx : p.rx = .boundary) (l : Nat) (hl : l < 64) :
    p.receive OpTable.default n ⟨ctrlCmd, BitVec.ofNat 8 (0b01000000 + l)⟩ =
      { p with cfg := { p.cfg with startLine := BitVec.ofNat 6 l } } := by
  by_cases h0 : l = 0
  · subst h0
    exact receive_oneByte OpTable.default_distinct n hrx (k := .startline) rfl rfl
  · exact receive_embedded n hrx (named_startLine l hl h0) (embeddedSettings_startLine l hl)

/-- Every byte of the seven families sets its operand (30_encoding R63): the start line, and of the others the
one or two values that the catalogue has, and the one it has not. -/
theorem receive_embeddedOperands (n : Nat) (hrx : p.rx = .boundary) :
    ∀ e ∈ embeddedOperands, p.receive OpTable.default n ⟨ctrlCmd, e.1⟩ = { p with cfg := e.2 p.cfg } := by
  have catalogue := fun k c => receive_oneByte (p := p) OpTable.default_distinct n hrx (k := k) (c := c)
  have embedded := fun b f => receive_embedded (p := p) (o := OpTable.default) n hrx (b := b) (f := f)
  simp only [embeddedOperands, List.forall_mem_append, List.forall_mem_map, List.mem_range,
    List.forall_mem_cons, List.not_mem_nil, false_implies, implies_true, and_true]
  exact ⟨receive_startLine n hrx,
    embedded 0xA0 (fun c => { c with segRemap := false }) rfl rfl, catalogue .segremap _ rfl rfl,
    embedded 0xC0 (fun c => { c with comScanDec := false }) rfl rfl, catalogue .comscandec _ rfl rfl,
    catalogue .dispoff _ rfl rfl, catalogue .dispon _ rfl rfl,
    catalogue .normaldisp _ rfl rfl, catalogue .invertdisp _ rfl rfl,
    catalogue .resumeram _ rfl rfl, embedded 0xA5 (fun c => { c with ramDisplay := false }) rfl rfl,
    catalogue .scrolloff _ rfl rfl, catalogue .scrollon _ rfl rfl⟩

end

/-- Settles O42: the bytes go out one a step, and a byte of one of the seven families is a whole command. -/
theorem sendCmdSendsEveryByte : Obligations.SendCmdSendsEveryByte := by
  refine ⟨fun op ps s h as hs hscript => ?_, fun s h f b hmem hh hrx hops ha => ?_⟩
  · have hwriting := writing_of_sending hs
    obtain ⟨-, hhung, hraised, -, hc, hh⟩ := hs
    rw [List.replicate_succ] at hscript
    have hexec := sendCommand_acknowledged op ps hh (answer_cons hscript)
    rw [hc, List.append_nil] at hexec
    have hrun := run_afterBytes hwriting (as := as) [op] ps (by simp [hscript])
    refine ⟨_, _, hexec, rfl, afterBytes_oneCall _ _, rfl, hrun, rfl, rfl, rfl, ?_, rfl, hraised, hhung,
      afterBytes_sameHost _ _, afterBytes_sameController _ _, afterBytes_sameEncoder _ _⟩
    simp [State.afterBytes, hscript]
  · refine ⟨_, sendCommand_acknowledged b [] hh ha, rfl, ?_⟩
    rw [afterBytes_panel_singleton, hops]
    exact receive_embeddedOperands s.draws hrx (b, f) hmem

end Sys2Proof.Machine
end

section
/-! The data write (30_encoding R58, 43_address_window R121, R125) and the pseudo-instructions
(30_encoding R70). -/

namespace Sys2Proof.Machine

/-! ### DATA -/

/-- The page-stride counters as one 10-bit number (43_address_window R121): the column wraps into the page. -/
theorem stride_append (pg : BitVec 3) (col : BitVec 7) :
    (if col = 127 then pg + 1 else pg) ++ (col + 1) = (pg ++ col) + 1#10 := by
  have hcol := col.isLt
  have hlast : col = 127 ↔ col.toNat = 127 := by rw [← BitVec.toNat_inj]; rfl
  have happend (p : BitVec 3) (c : BitVec 7) : (p ++ c).toNat = p.toNat * 128 + c.toNat := by
    rw [BitVec.toNat_append, ← Nat.shiftLeft_add_eq_or_of_lt c.isLt, Nat.shiftLeft_eq]
  apply BitVec.eq_of_toNat_eq
  rw [happend, BitVec.toNat_add (pg ++ col), happend]
  by_cases hc : col = 127
  · have hc' := hlast.mp hc
    rw [if_pos hc]
    simp only [BitVec.ofNat_eq_ofNat, BitVec.toNat_add, BitVec.toNat_ofNat]
    omega
  · have hc' := mt hlast.mpr hc
    rw [if_neg hc]
    simp only [BitVec.ofNat_eq_ofNat, BitVec.toNat_add, BitVec.toNat_ofNat]
    omega

/-- An acknowledged data write steps `SEQ` and the page-stride counters (43_address_window R122). -/
theorem strideStep_acknowledged {s : State} (h : Nat) (x : Xact) (ha : s.answer = .ok) :
    strideStep x (transportWrite h x s) =
      { s.drawn with
        trace := s.trace ++ [.write h x .acknowledged]
        panel := s.panel.receive s.par.ops s.draws x
        ret := .ok
        seq := s.seq + 1
        col := s.col + 1
        pg := if s.col = 127 then s.pg + 1 else s.pg } := by
  rw [transportWrite_ok h x ha]
  rfl

/-- Settles O45: the panel stores the byte at its write position, which steps by the window, and the core's
counters step with it. -/
theorem dataWriteStoresAtPosition : Obligations.DataWriteStoresAtPosition := by
  intro d s h hh hrx hmode ha
  have hexec := exec_data_opened d hh
  have hpanel := receive_data (o := s.par.ops) s.draws hrx d
  rw [store_horizontal s.draws d hmode] at hpanel
  rw [strideStep_acknowledged h _ ha, hpanel] at hexec
  refine ⟨_, hexec, ⟨rfl, rfl, rfl, rfl, rfl⟩, rfl, rfl, rfl, rfl, rfl, rfl, read_write_same _ _ _,
    fun a hne => read_write_other _ d hne, hrx, fun hcol => advance_inside hcol, fun hcol hpage => ?_,
    fun hcol hpage => ?_, stride_append s.pg s.col, rfl, rfl, ⟨rfl, rfl, rfl⟩, ⟨rfl, rfl, rfl, rfl, rfl, rfl⟩⟩
  · exact (advance_wraps hcol).trans (by rw [if_neg hpage])
  · exact (advance_wraps hcol).trans (by rw [if_pos hpage])

/-! ### The pseudo-instructions -/

/-- The window as six bytes (43_address_window R118). -/
theorem windowStream_eq (o : OpTable) :
    windowStream o = ([o.coladdr, 0x00, 0x7F, o.pageaddr, 0x00, 0x07] : List Byte).map
      fun b => ⟨ctrlCmd, b⟩ :=
  rfl

/-- The frame of ENCODE as 1024 data writes in ascending index (43_address_window R122). -/
theorem frameStream_encodeBuffer_range (surf : Surface) :
    frameStream (encodeBuffer surf) =
      (List.range 1024).map fun i => ⟨ctrlData, packByte surf (i / 128) (i % 128)⟩ := by
  rw [frameStream_encodeBuffer, encodeBytes, List.map_map]
  rfl

theorem exec_sendFrame {s : State} {m : Memory} (hpb : s.pb = some m) :
    exec .sendFrame s = .next (expand (frameStream m) { s with pg := 0, col := 0 }) := by
  simp only [exec, execSendFrame, hpb]

theorem exec_updateProgram {surf : Surface} (hz : panelSized surf = true) (s : State) :
    exec (.updateProgram surf) s = .next (expand (updateStream s.par.ops surf)
      { s with pb := some (encodeBuffer surf), acc := packByte surf 7 127, pg := 0, col := 0 }) := by
  simp only [exec, execUpdateProgram, hz, if_true]

/-- Settles O47: each pseudo-instruction puts its stream in front of the program. -/
theorem pseudoInstructionsExpand : Obligations.PseudoInstructionsExpand := by
  refine ⟨fun s => rfl, fun s => rfl, fun s m hpb => ?_, fun s surf hz => ?_⟩
  · rw [exec_sendFrame hpb, frameStream, Memory.bytes, List.map_map]
    rfl
  · refine ⟨_, exec_updateProgram hz s, ?_, ?_, rfl, rfl, rfl, rfl, ⟨rfl, rfl, rfl, rfl, rfl, rfl⟩,
      ⟨rfl, rfl, rfl, rfl, rfl, rfl⟩, ⟨rfl, rfl, rfl⟩, ⟨rfl, rfl, fun _ => rfl⟩⟩
    · rw [expand_queue, updateStream, windowStream_eq, frameStream_encodeBuffer_range]
      rfl
    · simp only [expand_queue, updateStream, List.length_append, windowStream_length,
        frameStream_encodeBuffer_length]

end Sys2Proof.Machine
end

section
/-! The Transport's three operations by its answer (40_transport R71 to R76), and the open step of
INITIALIZE, which is T_OPEN with the use of its answer (44_display_controller R133). -/

namespace Sys2Proof.Machine

/-! ### T_OPEN -/

section
variable {s : State} (addr : BitVec 7)

theorem exec_tOpen (s : State) : exec (.tOpen addr) s = .next (transportOpen addr s) := rfl

theorem transportOpen_ok (ha : s.answer = .ok) :
    transportOpen addr s =
      { s.drawn with
        tokens := s.tokens + 1
        trace := s.trace ++ [.opened addr (s.tokens + 1)]
        ret := .handle (s.tokens + 1) } := by
  simp only [transportOpen, ha]

theorem transportOpen_fail {a : Bool} (ha : s.answer = .fail a) :
    transportOpen addr s =
      { s.drawn with trace := s.trace ++ [.openFailed addr], ret := .openError } := by
  simp only [transportOpen, ha]

theorem transportOpen_silent {a : Bool} (ha : s.answer = .silent a) :
    transportOpen addr s =
      { s.drawn with trace := s.trace ++ [.openUnanswered addr], ret := .none, hung := true } := by
  simp only [transportOpen, ha]

/-- T_OPEN writes no register of the core, HND included, and sends the panel nothing. -/
theorem transportOpen_frame (s : State) :
    SameHost s (transportOpen addr s) ∧ SameController s (transportOpen addr s) ∧
      SameProgram s (transportOpen addr s) ∧ SameEncoder s (transportOpen addr s) ∧
      SamePanel s (transportOpen addr s) := by
  simp [SameHost, SameController, SameProgram, SameEncoder, SamePanel, State.pbByte, State.ramByte]

end

/-- Settles O35, by the Transport's answer. -/
theorem tOpenAnswers : Obligations.TOpenAnswers := by
  intro addr s
  have hexec := exec_tOpen addr s
  have hframe := transportOpen_frame addr s
  refine ⟨fun ha => ?_, fun a ha => ?_, fun a ha => ?_⟩
  · rw [transportOpen_ok addr ha] at hexec hframe
    exact ⟨_, hexec, rfl, rfl, rfl, rfl, hframe⟩
  · rw [transportOpen_fail addr ha] at hexec hframe
    exact ⟨_, hexec, rfl, ⟨rfl, rfl, rfl, rfl, rfl⟩, rfl, hframe⟩
  · rw [transportOpen_silent addr ha] at hexec hframe
    exact ⟨_, hexec, rfl, ⟨rfl, rfl, rfl, rfl, rfl⟩, hframe⟩

/-! ### T_WRITE -/

theorem exec_tWrite_opened {s : State} {h : Nat} (ctrl byte : Byte) (hh : s.hnd = .opened h) :
    exec (.tWrite ctrl byte) s = .next (transportWrite h ⟨ctrl, byte⟩ s) :=
  writeRegister_opened _ hh

/-- T_WRITE writes no register of the core: `SEQ` is its caller's to advance. -/
theorem transportWrite_frame (h : Nat) (x : Xact) (s : State) :
    SameHost s (transportWrite h x s) ∧ SameController s (transportWrite h x s) ∧
      SameProgram s (transportWrite h x s) ∧ SameEncoder s (transportWrite h x s) := by
  simp [SameHost, SameController, SameProgram, SameEncoder, State.pbByte]

/-- Settles O36, by the Transport's answer and, where there is none, by whether the build has a timeout. -/
theorem tWriteAnswers : Obligations.TWriteAnswers := by
  intro ctrl byte s h hh
  have hexec := exec_tWrite_opened ctrl byte hh
  have hframe := transportWrite_frame h ⟨ctrl, byte⟩ s
  refine ⟨fun ha => ?_, fun a ha => ?_, fun a n ha hn => ?_, fun a ha hn => ?_⟩
  · rw [transportWrite_ok h _ ha] at hexec hframe
    exact ⟨_, hexec, rfl, ⟨rfl, rfl, rfl, rfl, rfl⟩, rfl, rfl, hframe⟩
  · rw [transportWrite_fail h _ ha] at hexec hframe
    exact ⟨_, hexec, rfl, ⟨rfl, rfl, rfl, rfl, rfl⟩, rfl, rfl, hframe⟩
  · rw [transportWrite_timeout h _ ha hn] at hexec hframe
    exact ⟨_, hexec, rfl, ⟨rfl, rfl, rfl, rfl, rfl⟩, rfl, rfl, hframe⟩
  · rw [transportWrite_silent h _ ha hn] at hexec hframe
    exact ⟨_, hexec, rfl, ⟨rfl, rfl, rfl, rfl, rfl⟩, rfl, hframe⟩

/-! ### T_CLOSE -/

section
variable {s : State} {h : Nat}

theorem exec_tClose_unopened (hh : s.hnd = .unopened) : exec .tClose s = .next { s with ret := .ok } := by
  simp only [exec, execTClose, closeBus, hh]

theorem exec_tClose_opened (hh : s.hnd = .opened h) : exec .tClose s = .next (transportClose h s) := by
  simp only [exec, execTClose, closeBus, hh]

theorem transportClose_ok (ha : s.answer = .ok) :
    transportClose h s = { s.drawn with trace := s.trace ++ [.closed h true], ret := .ok } := by
  simp only [transportClose, ha]

theorem transportClose_fail {a : Bool} (ha : s.answer = .fail a) :
    transportClose h s =
      { s.drawn with
        trace := s.trace ++ [.closed h false]
        diags := s.diags ++ [.closeFailed h]
        ret := .ok } := by
  simp only [transportClose, ha]

end

@[simp] theorem transportClose_script (h : Nat) (s : State) :
    (transportClose h s).script = s.script.tail := by
  unfold transportClose
  split <;> rfl

@[simp] theorem transportClose_draws (h : Nat) (s : State) : (transportClose h s).draws = s.draws + 1 := by
  unfold transportClose
  split <;> rfl

/-- T_CLOSE writes no register of the core: the sentinel is its caller's to write back. -/
theorem transportClose_frame (h : Nat) (s : State) :
    SameHost s (transportClose h s) ∧ SameController s (transportClose h s) ∧
      SameProgram s (transportClose h s) ∧ SameEncoder s (transportClose h s) ∧
      SamePanel s (transportClose h s) := by
  simp [SameHost, SameController, SameProgram, SameEncoder, SamePanel, State.pbByte, State.ramByte]

/-- Settles O37, by whether the handle is open; the answer decides only what is recorded of the close. -/
theorem tCloseNeverFails : Obligations.TCloseNeverFails := by
  intro s
  refine ⟨exec_tClose_unopened, fun h hh => ?_⟩
  obtain ⟨htrace, hret⟩ := transportClose_cases h s
  refine ⟨_, exec_tClose_opened hh, hret, fun ha => ?_, fun a ha => ?_, htrace, transportClose_hung h s,
    transportClose_tokens h s, transportClose_script h s, transportClose_draws h s, transportClose_frame h s⟩
  · rw [transportClose_ok ha]
    exact ⟨rfl, rfl⟩
  · rw [transportClose_fail ha]
    exact ⟨rfl, rfl⟩

/-! ### The open step -/

theorem step_openBus {s : State} (hb : s.busy = true) (hh : s.hung = false) (hr : s.raised = none)
    (ho : s.opk = .none) : step s = .next (afterOpen (transportOpen devAddr s)) := by
  have hnext : nextAction s = .openBus := by simp [nextAction, hb, hh, hr, ho]
  simp only [step, hnext, exec_tOpen, thenDo_next]

/-- While a Transport call is never answered no step is enabled (70_reset_and_hazards R176). -/
theorem step_hung {s : State} (hh : s.hung = true) : step s = .fault .transportUnanswered := by
  have hnext : nextAction s = .stuck := by simp [nextAction, hh]
  simp only [step, hnext]

/-- Settles O19: the step is T_OPEN with INITIALIZE's use of its answer, by that answer. -/
theorem openStep : Obligations.OpenStep := by
  intro s hb hh hr ho hhnd
  have hstep := step_openBus hb hh hr ho
  refine ⟨fun ha => ?_, fun a ha => ?_, fun a ha => ?_⟩
  · rw [transportOpen_ok devAddr ha] at hstep
    exact ⟨_, hstep, rfl, rfl, rfl, rfl, hb, rfl, rfl, rfl, ⟨rfl, rfl, rfl, .rfl, fun _ => rfl⟩,
      rfl, rfl, fun _ => rfl⟩
  · rw [transportOpen_fail devAddr ha] at hstep
    exact ⟨_, hstep, rfl, hhnd, rfl, rfl, rfl, rfl, rfl, rfl, rfl, fun _ => rfl⟩
  · rw [transportOpen_silent devAddr ha] at hstep
    exact ⟨_, hstep, ⟨hb, rfl⟩, hhnd, rfl, rfl, step_hung rfl⟩

end Sys2Proof.Machine
end

section
/-! The initialization table as written (41_command_table R81), and what a panel that has received it shows
of its RAM (42_frame_encoder R115). -/

namespace Sys2Proof.Machine

/-! ### The initialization stream -/

/-- Flattening the 17 commands puts each opcode in front of its parameter, whatever the opcodes are. -/
theorem initStream_eq_map (o : OpTable) : initStream o =
    ([o.dispoff, o.clkdiv, 0x80, o.muxratio, 0x3F, o.dispoffset, 0x00, o.startline, o.chargepump, 0x14,
      o.memmode, 0x00, o.segremap, o.comscandec, o.compins, 0x12, o.contrast, 0xCF, o.precharge, 0xF1,
      o.vcomdesel, 0x40, o.resumeram, o.normaldisp, o.scrolloff, o.dispon] : List Byte).map
      (fun b => ⟨ctrlCmd, b⟩) := rfl

/-- Settles O38: the default line is the general one at the default opcodes. -/
theorem initStreamIsTheTable : Obligations.InitStreamIsTheTable :=
  ⟨initStream_eq_map, initStream_length, initStream_eq_map OpTable.default⟩

/-! ### Lit segments -/

section
variable {p : Panel} (hrx : p.rx ≠ .lost)
include hrx

/-- A receiver that is not lost, at a boundary or inside a command, leaves the answer to the configuration. -/
theorem Panel.lit_of_not_lost (page col n : Nat) : p.lit page col n =
    if p.cfg.displayOn = false then some false
    else if p.cfg.ramDisplay ∧ p.cfg.chargePump = 0x14 ∧ p.cfg.scrolling = false then
      (Memory.read p.ram (pageIndex page col)).map fun b => b.getLsbD n != p.cfg.inverted
    else if p.cfg.ramDisplay = false ∧ p.cfg.chargePump = 0x14 ∧ p.cfg.inverted = false then some true
    else none := by
  unfold Panel.lit
  split
  next hlost => exact absurd hlost hrx
  next => rfl

theorem Panel.lit_of_displayOff (page col n : Nat) (hoff : p.cfg.displayOn = false) :
    p.lit page col n = some false := by
  rw [Panel.lit_of_not_lost hrx, if_pos hoff]

theorem Panel.lit_of_ramDisplay {page col : Nat} (n : Nat) {b : Byte} (hon : p.cfg.displayOn = true)
    (hram : p.cfg.ramDisplay = true) (hpump : p.cfg.chargePump = 0x14) (hscroll : p.cfg.scrolling = false)
    (hread : Memory.read p.ram (pageIndex page col) = some b) :
    p.lit page col n = some (b.getLsbD n != p.cfg.inverted) := by
  rw [Panel.lit_of_not_lost hrx, if_neg (by simp [hon]), if_pos ⟨hram, hpump, hscroll⟩, hread, Option.map_some]

theorem Panel.lit_of_allOn (page col n : Nat) (hon : p.cfg.displayOn = true) (hall : p.cfg.ramDisplay = false)
    (hpump : p.cfg.chargePump = 0x14) (hinv : p.cfg.inverted = false) :
    p.lit page col n = some true := by
  rw [Panel.lit_of_not_lost hrx, if_neg (by simp [hon]), if_neg (by simp [hall]), if_pos ⟨hall, hpump, hinv⟩]

end

/-- Inverted mode turns every bit around and normal mode none (41_command_table R98, R103). -/
theorem bne_inverted (bit inverted : Bool) : (bit != inverted) = if inverted then !bit else bit := by
  cases inverted
  · exact Bool.bne_false bit
  · exact Bool.bne_true bit

/-- Settles O60, by what the panel is set to show: nothing, its RAM, or all on. -/
theorem litSegmentsFollowRam : Obligations.LitSegmentsFollowRam := by
  intro p page col n b hrx
  refine ⟨Panel.lit_of_displayOff hrx page col n, fun hon hram hpump hscroll hread => ?_,
    Panel.lit_of_allOn hrx page col n⟩
  rw [Panel.lit_of_ramDisplay hrx n hon hram hpump hscroll hread, bne_inverted]

end Sys2Proof.Machine
end

section
/-! The framebuffer encoder (42_frame_encoder): which intensities are ink, what PACK and ENCODE compute from the
classes of the pixels, and what they leave unchanged. -/

namespace Sys2Proof.Machine

/-! ### CLASSIFY -/

/-- The rational an intensity's value is (42_frame_encoder R108), if it is a number. -/
def intensityRat : IntensityValue → Option ℚ
  | .number num denPred => some ((num : ℚ) / ((denPred : ℚ) + 1))
  | .infinity _ => none
  | .nan => none

/-- A floating-point value as a fraction is the power of two it stands for. -/
theorem intensityRat_floatValue (negative : Bool) (significand : Nat) (exponent : Int) :
    intensityRat (floatValue negative significand exponent) =
      some ((if negative then -(significand : ℚ) else significand) * (2 : ℚ) ^ exponent) := by
  have hden : ((2 ^ (-exponent).toNat - 1 : ℕ) : ℚ) + 1 = 2 ^ (-exponent).toNat := by
    rw [Nat.cast_sub Nat.one_le_two_pow]
    simp
  have hpow : (2 : ℚ) ^ exponent = 2 ^ exponent.toNat / 2 ^ (-exponent).toNat := by
    rw [← zpow_natCast, ← zpow_natCast, ← zpow_sub₀ two_ne_zero, Int.toNat_sub_toNat_neg]
  rw [floatValue, intensityRat, hden, hpow, ← mul_div_assoc]
  cases negative <;> simp

/-- The value CLASSIFY compares is the rational the intensity stands for. -/
theorem intensityVal_eq_intensityRat (v : Intensity) : intensityVal v = intensityRat (intensityValue v) := by
  cases v with
  | float negative significand exponent => exact (intensityRat_floatValue ..).symm
  | own n => cases h : Config.ownIntensity n <;> simp only [intensityVal, intensityValue, intensityRat, h]
  | per255 u | per256 u => norm_num [intensityVal, intensityValue, intensityRat]
  | ratio | infinity | nan => rfl

theorem ink_number {v : Intensity} {num : Int} {denPred : Nat} (hv : intensityValue v = .number num denPred) :
    ink v = true ↔ (denPred : Int) + 1 < 2 * num := by
  simp only [ink, hv, decide_eq_true_eq]

/-- The comparison in integers is the comparison of the fraction with 1/2. -/
theorem half_lt_fraction (num : Int) (denPred : Nat) :
    (1 / 2 : ℚ) < (num : ℚ) / ((denPred : ℚ) + 1) ↔ (denPred : Int) + 1 < 2 * num := by
  rw [div_lt_div_iff₀ two_pos (by positivity), one_mul, mul_comm (num : ℚ)]
  exact_mod_cast Iff.rfl

/-- Settles O24, by what the intensity stands for: a number, an infinity or no number. -/
theorem classifyExceedsHalf : Obligations.ClassifyExceedsHalf := by
  refine ⟨fun v s => rfl, fun v => ?_⟩
  rw [intensityVal_eq_intensityRat]
  cases hv : intensityValue v with
  | number num denPred => simpa [intensityRat] using (ink_number hv).trans (half_lt_fraction num denPred).symm
  | infinity negative => simp [ink, hv, intensityRat]
  | nan => simp [ink, hv, intensityRat]

/-- Settles O25. -/
theorem eightBitInstantiations : Obligations.EightBitInstantiations := by
  refine fun u => ⟨(ink_number rfl).trans ?_, (ink_number rfl).trans ?_⟩ <;> omega

/-! ### PACK -/

theorem exec_pack {surf : Surface} (hz : panelSized surf = true) (page : BitVec 3) (x : BitVec 7) (s : State) :
    exec (.pack surf page x) s = .next { s with
      acc := packByte surf page.toNat x.toNat
      ret := .byte (packByte surf page.toNat x.toNat) } := by
  simp only [exec, execPack, hz, if_true]

/-- Settles O26. -/
theorem packSetsRowBits : Obligations.PackSetsRowBits :=
  fun surf page x s hz => ⟨_, exec_pack hz page x s, packByte_getLsbD surf page.toNat x.toNat⟩

/-- A byte is the packed one when its bits are the classes of the eight pixels (42_frame_encoder R110). -/
theorem packByte_eq {surf : Surface} {page x : Nat} {b : Byte}
    (h : ∀ n < 8, ink (readPixel surf x (page * 8 + n)) = b.getLsbD n) : packByte surf page x = b :=
  BitVec.eq_of_getLsbD_eq fun n hn => (packByte_getLsbD surf page x n hn).trans (h n hn)

/-! ### ENCODE: its effect and its frame -/

/-- Settles O28. -/
theorem encodeFrame : Obligations.EncodeFrame :=
  fun _ s hz => ⟨_, exec_encode hz s, rfl, ⟨rfl, rfl, rfl, rfl, rfl, rfl⟩, ⟨rfl, rfl, rfl, rfl⟩,
    ⟨rfl, rfl, rfl, rfl, rfl, rfl⟩, ⟨rfl, rfl, rfl⟩, ⟨rfl, rfl, fun _ => rfl⟩⟩

theorem encodeBuffer_length (surf : Surface) : (encodeBuffer surf).length = 1024 := by
  have hbytes := congrArg List.length (bytes_ofBytes (encodeBytes surf) 0)
  rwa [Memory.bytes, List.length_map, encodeBytes_length] at hbytes

/-- The PageBuffer ends at index 1023 (20_memory R35). -/
theorem read_encodeBuffer_above (surf : Surface) {i : Nat} (hi : 1024 ≤ i) :
    Memory.read (encodeBuffer surf) i = none := by
  have hread := read_ofBytes (encodeBytes surf) 0 i
  rwa [Nat.zero_add, List.getElem?_eq_none (by simpa using hi)] at hread

/-- What PB holds after ENCODE, index by index. -/
theorem exec_encode_read {surf : Surface} (hz : panelSized surf = true) (s : State) :
    ∃ t, exec (.encode surf) s = .next t ∧ t.pb = some (encodeBuffer surf) ∧
      ∀ i, t.pbByte i = Memory.read (encodeBuffer surf) i :=
  ⟨_, exec_encode hz s, rfl, fun _ => rfl⟩

/-- Settles O29. -/
theorem encodeAlways1024Bytes : Obligations.EncodeAlways1024Bytes := by
  intro surf s hz
  obtain ⟨t, ht, hpb, hread⟩ := exec_encode_read hz s
  exact ⟨t, _, ht, hpb, encodeBuffer_length surf,
    fun i hi => ⟨_, (hread i).trans (read_encodeBuffer surf i hi)⟩,
    fun i hi => (hread i).trans (read_encodeBuffer_above surf hi)⟩

/-! ### ENCODE: the bytes from the classes of the pixels -/

/-- The PageBuffer has byte `b` at an index when the bits of `b` are the classes of that index's eight pixels. -/
theorem read_encodeBuffer_eq {surf : Surface} {i : Nat} (hi : i < 1024) {b : Byte}
    (h : ∀ n < 8, ink (readPixel surf (i % 128) (i / 128 * 8 + n)) = b.getLsbD n) :
    Memory.read (encodeBuffer surf) i = some b := by
  rw [read_encodeBuffer surf i hi, packByte_eq h]

/-- Settles O30: 0x00 has no bit set and 0xFF has all eight. -/
theorem encodeUniformSurfaces : Obligations.EncodeUniformSurfaces := by
  intro surf s hz
  obtain ⟨t, ht, -, hread⟩ := exec_encode_read hz s
  refine ⟨t, ht, fun hbackground i hi => (hread i).trans ?_, fun hink i hi => (hread i).trans ?_⟩
  · refine read_encodeBuffer_eq hi fun n hn => ?_
    rw [hbackground _ _ (by omega) (by omega)]
    exact BitVec.getLsbD_zero.symm
  · refine read_encodeBuffer_eq hi fun n hn => ?_
    rw [hink _ _ (by omega) (by omega)]
    exact ((BitVec.getLsbD_allOnes (v := 8)).trans (decide_eq_true hn)).symm

/-- Bit `n` of index `i` is the place of pixel `(x, y)` exactly when the index is the pixel's and the bit number
is the pixel's (20_memory R36). -/
theorem pixel_eq_iff {i n x y : Nat} (hx : x < 128) (hn : n < 8) :
    i % 128 = x ∧ i / 128 * 8 + n = y ↔ i = y / 8 * 128 + x ∧ y % 8 = n := by
  omega

/-- The byte `1 << k` has bit `k` and no other. -/
theorem getLsbD_one_shiftLeft {k : Nat} (hk : k < 8) (n : Nat) :
    ((1 : Byte) <<< k).getLsbD n = decide (k = n) :=
  (BitVec.getLsbD_twoPow k n).trans (by simp [hk])

/-- With one ink pixel, its byte has its bit set and every other byte is zero (42_frame_encoder R114). -/
theorem read_encodeBuffer_singlePixel {surf : Surface} {x y : Nat} (hx : x < 128)
    (h : ∀ x' y', x' < 128 → y' < 64 → (ink (readPixel surf x' y') = true ↔ x' = x ∧ y' = y))
    {i : Nat} (hi : i < 1024) :
    Memory.read (encodeBuffer surf) i =
      some (if i = y / 8 * 128 + x then (1 : Byte) <<< (y % 8) else 0x00) := by
  refine read_encodeBuffer_eq hi fun n hn => ?_
  rw [Bool.eq_iff_iff, h _ _ (by omega) (by omega), pixel_eq_iff hx hn]
  by_cases hindex : i = y / 8 * 128 + x
  · rw [if_pos hindex, getLsbD_one_shiftLeft (Nat.mod_lt y (by decide)), decide_eq_true_eq, and_iff_right hindex]
  · simp [hindex]

/-- Settles O31; the three examples of R114 follow from the general sentence. -/
theorem encodeSinglePixel : Obligations.EncodeSinglePixel := by
  intro surf s x y hz hx _ hpixel
  obtain ⟨t, ht, -, hread⟩ := exec_encode_read hz s
  have hbyte : ∀ i < 1024, t.pbByte i = some (if i = y / 8 * 128 + x then (1 : Byte) <<< (y % 8) else 0x00) :=
    fun i hi => (hread i).trans (read_encodeBuffer_singlePixel hx hpixel hi)
  refine ⟨t, ht, hbyte, ?_, ?_, ?_⟩ <;> rintro rfl rfl
  · exact hbyte 0 (by decide)
  · exact hbyte 0 (by decide)
  · exact hbyte 1 (by decide)

/-- ENCODE reads nothing of a surface but the classes of its pixels (42_frame_encoder R106). -/
theorem encodeBuffer_congr {surf surf' : Surface}
    (h : ∀ x y, x < 128 → y < 64 → ink (readPixel surf x y) = ink (readPixel surf' x y)) :
    encodeBuffer surf = encodeBuffer surf' := by
  refine congrArg (Memory.ofBytes 0) (List.map_congr_left fun i hi => packByte_eq fun n hn => ?_)
  have hi := List.mem_range.mp hi
  rw [packByte_getLsbD _ _ _ _ hn, h _ _ (by omega) (by omega)]

/-- Settles O32. -/
theorem encodeDependsOnPixelsOnly : Obligations.EncodeDependsOnPixelsOnly :=
  fun _ _ s s' hz hz' h =>
    ⟨_, _, exec_encode hz s, exec_encode hz' s', congrArg some (encodeBuffer_congr h)⟩

/-! ### The encode step -/

/-- The encode step, whatever handle the core holds: ENCODE, then its frame put in the program
(44_display_controller R133). -/
theorem step_of_encodeFrame {s : State} {surf : Surface} (hnext : nextAction s = .encodeFrame surf)
    (hz : panelSized surf = true) :
    step s = .next (expand (frameStream (encodeBuffer surf))
      { s with pb := some (encodeBuffer surf), pg := 0, col := 0, acc := packByte surf 7 127, ret := .ok }) := by
  simp only [step, hnext, exec_encode hz]
  exact exec_sendFrame rfl

/-- Settles O20. -/
theorem encodeStep : Obligations.EncodeStep := by
  intro s surf hb hh hr ho hc hq hpb hsurf hz
  have hnext : nextAction s = .encodeFrame surf := by
    simp [nextAction, nextEntry, hb, hh, hr, ho, hc, hq, hpb, hsurf]
  refine ⟨_, step_of_encodeFrame hnext hz, rfl, ?_, rfl, hc, hr, ⟨rfl, rfl, rfl, rfl, rfl, rfl⟩,
    ⟨rfl, rfl, rfl, rfl, rfl, rfl⟩, ⟨rfl, rfl, rfl⟩, ⟨rfl, rfl, fun _ => rfl⟩⟩
  rw [expand_queue, frameStream_encodeBuffer_range, hq, List.append_nil]
  rfl

end Sys2Proof.Machine
end

section
/-! An UPDATE whose window write fails (43_address_window R126, 60_exceptions R155): the core sends no data byte,
and a panel that takes the window commands has written no RAM, however far they came. -/

namespace Sys2Proof.Machine

/-! ### Command bytes write no RAM -/

section
variable {p : Panel} {o : OpTable}

/-- A command's effect is on the configuration; a command without one loses the receiver. -/
theorem collect_ram (n : Nat) (k : Cmd) (got : List Byte) (hl : (p.collect n k got).rx ≠ .lost) :
    (p.collect n k got).ram = p.ram := by
  by_cases hwaits : got.length < k.arity
  · rw [collect_waits n hwaits]
  · have heq : p.collect n k got = p.apply n k got := if_neg hwaits
    rw [heq] at hl ⊢
    cases hc : p.cfg.command k got with
    | some c => simp [Panel.apply, hc]
    | none => simp [Panel.apply, hc, Panel.garble] at hl

/-- A command byte that does not lose the receiver writes no RAM. -/
theorem receive_command_ram {n : Nat} {x : Xact} (hx : x.ctrl = ctrlCmd) (hl : (p.receive o n x).rx ≠ .lost) :
    (p.receive o n x).ram = p.ram := by
  cases hr : p.rx with
  | lost => exact absurd (lost_stays_lost n true x hr).1 hl
  | param k got =>
    have heq : p.receive o n x = p.collect n k (got ++ [x.byte]) := by simp [Panel.receive, hr, hx]
    rw [heq] at hl ⊢
    exact collect_ram n k _ hl
  | boundary =>
    have heq : p.receive o n x = p.opcode o n x.byte := by simp [Panel.receive, hr, hx]
    rw [heq] at hl ⊢
    by_cases hnamed : o.named x.byte = []
    · unfold Panel.opcode at hl ⊢
      rw [hnamed] at hl ⊢
      cases hset : embeddedSettings o x.byte with
      | nil => simp [hset, Panel.garble] at hl
      | cons f fs => cases fs <;> rfl
    · exact opcode_ram n hnamed

theorem receiveAll_lost (n : Nat) (xs : List Xact) (hr : p.rx = .lost) : (p.receiveAll o n xs).rx = .lost := by
  induction xs generalizing p n with
  | nil => exact hr
  | cons x xs ih => exact ih (n + 1) (lost_stays_lost n true x hr).1

/-- Since a lost receiver stays lost, one that is not lost in the end was lost by none of the bytes. -/
theorem receiveAll_command_ram (n : Nat) {xs : List Xact} (hxs : ∀ x ∈ xs, x.ctrl = ctrlCmd)
    (hl : (p.receiveAll o n xs).rx ≠ .lost) : (p.receiveAll o n xs).ram = p.ram := by
  induction xs generalizing p n with
  | nil => rfl
  | cons x xs ih =>
    have hfirst : (p.receive o n x).ram = p.ram :=
      receive_command_ram (hxs x List.mem_cons_self) (mt (receiveAll_lost (n + 1) xs) hl)
    exact (ih (n + 1) (fun y hy => hxs y (List.mem_cons_of_mem x hy)) hl).trans hfirst

/-- The window commands leave the receiver at a command boundary, so no part of them loses it. -/
theorem receiveAll_windowPart_ram (hd : o.distinct = true) (n : Nat) (hrx : p.rx = .boundary)
    {xs ys : List Xact} (hw : windowStream o = xs ++ ys) : (p.receiveAll o n xs).ram = p.ram := by
  have hwhole := receiveAll_windowStream hd n hrx
  rw [hw, receiveAll_append] at hwhole
  refine receiveAll_command_ram n (fun x hx => ?_) fun hlost => ?_
  · have hmem : x ∈ windowStream o := hw ▸ List.mem_append_left ys hx
    exact ctrl_of_mem_flattenCommands hmem
  · have hend := receiveAll_lost (o := o) (n + xs.length) ys hlost
    simp [hwhole, hrx] at hend

/-- A failed window write leaves the RAM as it was, like the acknowledged ones before it
(43_address_window R126). -/
theorem unsure_window_ram (hd : o.distinct = true) (n : Nat) (a : Bool) (hrx : p.rx = .boundary)
    {xs ys : List Xact} {x : Xact} (hw : windowStream o = xs ++ x :: ys) :
    ((p.receiveAll o n xs).unsure o (n + xs.length) a x).ram = p.ram := by
  have hbefore := receiveAll_windowPart_ram hd n hrx hw
  have hwith := receiveAll_windowPart_ram hd n hrx (hw.trans (List.append_cons xs x ys))
  rw [receiveAll_append] at hwith
  exact (unsure_ram a (hwith.trans hbefore.symm)).trans hbefore

end

/-! ### The failed write and the abort -/

/-- An UPDATE whose next write fails has aborted after two steps (44_display_controller R133, 60_exceptions
R155); `t` is the state between the two. -/
theorem run_failed_update {s : State} {h : Nat} (hs : s.Writing h) (ho : s.opk = .update) {x : Xact}
    {xs : List Xact} (hu : s.unsent = x :: xs) {a : Bool} (ha : s.answer = .fail a) :
    ∃ t, core.run 2 s = .next (finish .update (.transportWriteError s.seq x) t) ∧
      OneCall s t (.write h x .failed) ∧ t.hung = false ∧
      t.panel = s.panel.unsure s.par.ops s.draws a x ∧ SameHost s t ∧ SameController s t := by
  obtain ⟨t, hstep, hcall, hseq, hraised, hhung, hpanel, hhost, hcontroller⟩ := step_failed hs hu ha
  have ⟨_, _, _, hbusy, hopk, _⟩ := hcontroller
  have hunhung := hhung.trans hs.hung
  have habort := step_abort_update (hbusy.trans hs.busy) hunhung hraised (hopk.trans ho)
  rw [hseq] at habort
  exact ⟨t, (run_add (m := 1) (run_one hstep)).trans (run_one habort), hcall, hunhung, hpanel, hhost,
    hcontroller⟩

/-- Settles O59: the window is sent up to write `f`, which fails, and the abort follows. -/
theorem windowAbortIsPrecise : Obligations.WindowAbortIsPrecise := by
  intro s h surf f a as x hs ho hseq hq _ _ _ hx hscript
  have hwriting := writing_of_sending hs
  obtain ⟨-, -, -, -, hc, hhnd⟩ := hs
  obtain ⟨hlt, hget⟩ := List.getElem?_eq_some_iff.mp hx
  have hsplit : windowStream s.par.ops =
      (windowStream s.par.ops).take f ++ x :: (windowStream s.par.ops).drop (f + 1) := by
    rw [← hget, ← List.drop_eq_getElem_cons hlt, List.take_append_drop]
  have hlen : ((windowStream s.par.ops).take f).length = f := List.length_take_of_le hlt.le
  have hunsent : s.unsent = windowStream s.par.ops := by simp [State.unsent, hc, hq]
  rw [hsplit] at hunsent
  obtain ⟨t, hrun, hack⟩ := run_acknowledged hwriting hunsent (by rw [hlen, hscript])
  have hrest := List.append_cancel_left (hack.unsent.symm.trans hunsent)
  have hanswers : t.script = .fail a :: as := by simpa [hscript, hlen] using hack.script.symm
  obtain ⟨u, hend, ⟨-, -, -, htrace, -⟩, hhung, hpanel, ⟨-, -, hreplies⟩, ⟨hst, hhndu, -⟩⟩ :=
    run_failed_update (hack.writing hwriting) (hack.opk.trans ho) hrest (answer_cons hanswers)
  rw [← run_add hrun, hack.seq, hseq, hlen, Nat.zero_add] at hend
  refine ⟨_, hend, rfl, hst.trans hack.st, hhndu.trans (hack.hnd.trans hhnd), rfl,
    ⟨rfl, hhung, rfl, rfl, rfl, rfl, rfl⟩, congrArg (· ++ _) (hreplies.trans hack.replies),
    htrace.trans (congrArg (· ++ _) hack.trace), ?_⟩
  rintro ⟨hrx, hdistinct⟩ i
  have hram : u.panel.ram = s.panel.ram := by
    rw [hpanel, hack.panel, hack.par, hack.draws]
    exact unsure_window_ram hdistinct s.draws a hrx hsplit
  exact congrArg (Memory.read · i) hram

end Sys2Proof.Machine
end

section
/-! The steps of 44_display_controller R133 that are no register write, named by what enables them, and the
host operations as an idle core issues them (R128, R129, R131, R132). -/

namespace Sys2Proof.Machine

section
variable {s : State}

/-! ### The abort and the complete step -/

/-- A failed write is followed by the abort step (44_display_controller R133). -/
theorem step_raised {x : Xact} (hb : s.busy = true) (hh : s.hung = false) (hr : s.raised = some x) :
    step s = abortOperation x s := by
  have hnext : nextAction s = .abort x := by simp [nextAction, hb, hh, hr]
  simp only [step, hnext]

/-- Inside an operation the abort path leaves the core idle (60_exceptions R155). -/
theorem abortOperation_idle (x : Xact) (ho : s.opk ≠ .none) :
    ∃ u, abortOperation x s = .next u ∧ u.busy = false := by
  rcases abortOperation_cases x s with ⟨-, he⟩ | ⟨-, he⟩ | ⟨hnone, -⟩
  · exact ⟨_, he, rfl⟩
  · exact ⟨_, he, rfl⟩
  · exact absurd hnone ho

/-- With the whole program sent, an operation completes; an UPDATE's program is whole once PB is built. -/
theorem step_complete (hb : s.busy = true) (hh : s.hung = false) (hr : s.raised = none)
    (ho : s.opk ≠ .none) (hc : s.cmdRest = []) (hq : s.queue = []) (hpb : s.opk = .update → s.pb ≠ none) :
    step s = .next (completeOperation s) := by
  have hnext : nextAction s = .complete := by
    cases hk : s.opk with
    | none => exact absurd hk ho
    | init => simp [nextAction, nextEntry, hb, hh, hr, hk, hc, hq]
    | update =>
      obtain ⟨m, hm⟩ := Option.ne_none_iff_exists'.mp (hpb hk)
      simp [nextAction, nextEntry, hb, hh, hr, hk, hc, hq, hm]
  simp only [step, hnext]

/-! ### INITIALIZE -/

theorem initRejected_iff : initRejected s = true ↔ s.st = .closed ∧ s.par.initFromClosed = .reject := by
  simp [initRejected]

theorem exec_initialize_rejected (hb : s.busy = false) (hrej : initRejected s = true) :
    exec .initializeOp s = .next (finish .initializeOp (.invalidStateError .initializeOp s.st) s) := by
  simp [exec, execInitialize, hb, hrej]

theorem exec_initialize_unopened (hb : s.busy = false) (hrej : ¬ initRejected s = true)
    (hh : s.hnd = .unopened) : exec .initializeOp s = .next (accept s) := by
  simp [exec, execInitialize, hb, hrej, hh]

theorem exec_initialize_opened {h : Nat} (hb : s.busy = false) (hrej : ¬ initRejected s = true)
    (hh : s.hnd = .opened h) :
    exec .initializeOp s = .next (startProgram .init (initStream s.par.ops) (accept s)) := by
  simp [exec, execInitialize, hb, hrej, hh]

/-! ### UPDATE -/

theorem panelSized_iff {surf : Surface} : panelSized surf = true ↔ surf.width = 128 ∧ surf.height = 64 := by
  simp [panelSized, displayWidth, displayHeight]

theorem updateError_not_ready {surf : Surface} (hst : s.st ≠ .ready) :
    updateError surf s = some (.invalidStateError .update s.st) := if_neg hst

theorem updateError_not_sized {surf : Surface} (hst : s.st = .ready) (hz : ¬ panelSized surf = true) :
    updateError surf s = some .invalidSurfaceError := by
  simp [updateError, hst, hz]

theorem updateError_none {surf : Surface} (hst : s.st = .ready) (hz : panelSized surf = true) :
    updateError surf s = none := by
  simp [updateError, hst, hz]

theorem exec_update_rejected {surf : Surface} {e : Result} (hb : s.busy = false)
    (he : updateError surf s = some e) : exec (.update surf) s = .next (finish .update e s) := by
  simp [exec, execUpdate, hb, he]

theorem exec_update_accepted {surf : Surface} (hb : s.busy = false) (he : updateError surf s = none) :
    exec (.update surf) s =
      .next (startProgram .update (windowStream s.par.ops) { accept s with surf := some surf }) := by
  simp [exec, execUpdate, hb, he]

end

/-! ### The statements -/

/-- Settles O21: the step is the complete step, whose frame is that of `finish`. -/
theorem completeStep : Obligations.CompleteStep := by
  intro s hb hh hr hc hq
  refine ⟨fun ho => ?_, fun ho hpb => ?_⟩
  · have hstep := step_complete hb hh hr (by simp [ho]) hc hq (by simp [ho])
    simp only [completeOperation, ho] at hstep
    exact ⟨_, hstep, rfl, rfl, rfl, rfl, ⟨rfl, hh, rfl, rfl, rfl, rfl, rfl⟩, rfl,
      ⟨rfl, rfl, rfl, rfl, rfl, rfl⟩, ⟨rfl, rfl, fun _ => rfl⟩⟩
  · have hstep := step_complete hb hh hr (by simp [ho]) hc hq fun _ => hpb
    simp only [completeOperation, ho] at hstep
    exact ⟨_, hstep, rfl, rfl, rfl, rfl, ⟨rfl, hh, rfl, rfl, rfl, rfl, rfl⟩, rfl,
      ⟨rfl, rfl, rfl, rfl, rfl, rfl⟩, ⟨rfl, rfl, fun _ => rfl⟩⟩

/-- Settles O48, by the policy's check and then by whether the handle is open. -/
theorem initializeIsAccepted : Obligations.InitializeIsAccepted := by
  intro s hb
  refine ⟨fun hst hpolicy => ?_, fun hadmits => ?_⟩
  · have hexec := exec_initialize_rejected hb (initRejected_iff.mpr ⟨hst, hpolicy⟩)
    rw [hst] at hexec
    exact ⟨_, hexec, rfl, rfl, rfl, rfl, rfl, rfl, rfl, ⟨rfl, rfl, rfl, rfl, rfl, rfl⟩,
      ⟨rfl, rfl, fun _ => rfl⟩, rfl, rfl, rfl, rfl, rfl, rfl, rfl⟩
  · have hrej : ¬ initRejected s = true := by
      rw [initRejected_iff]
      rintro ⟨hclosed, hreject⟩
      rcases hadmits with hst | hreopen
      · exact hst hclosed
      · simp [hreject] at hreopen
    cases hh : s.hnd with
    | unopened =>
      exact ⟨_, exec_initialize_unopened hb hrej hh, rfl, rfl, rfl, rfl, fun _ => ⟨rfl, rfl⟩,
        fun hopen => absurd rfl hopen, rfl, hh, rfl, ⟨rfl, rfl, rfl⟩, ⟨rfl, rfl, rfl, rfl, rfl, rfl⟩,
        ⟨rfl, rfl, fun _ => rfl⟩, rfl, rfl, rfl⟩
    | opened h =>
      exact ⟨_, exec_initialize_opened hb hrej hh, rfl, rfl, rfl, rfl, nofun,
        fun _ => ⟨rfl, rfl, rfl⟩, rfl, hh, rfl, ⟨rfl, rfl, rfl⟩, ⟨rfl, rfl, rfl, rfl, rfl, rfl⟩,
        ⟨rfl, rfl, fun _ => rfl⟩, rfl, rfl, rfl⟩

/-- Settles O49, by the two checks in their order (60_exceptions R154). -/
theorem updateIsChecked : Obligations.UpdateIsChecked := by
  intro s surf hb
  by_cases hst : s.st = .ready
  · by_cases hz : panelSized surf = true
    · have hdims := panelSized_iff.mp hz
      exact ⟨_, exec_update_accepted hb (updateError_none hst hz), rfl, rfl,
        ⟨rfl, rfl, rfl, rfl, rfl, rfl⟩, ⟨rfl, rfl, fun _ => rfl⟩, rfl, rfl, rfl, rfl, rfl, rfl, rfl,
        fun hne => absurd hst hne, fun _ hne => absurd hdims hne,
        fun _ _ _ => ⟨rfl, rfl, rfl, rfl, rfl, rfl, rfl, rfl, rfl⟩⟩
    · exact ⟨_, exec_update_rejected hb (updateError_not_sized hst hz), rfl, rfl,
        ⟨rfl, rfl, rfl, rfl, rfl, rfl⟩, ⟨rfl, rfl, fun _ => rfl⟩, rfl, rfl, rfl, rfl, rfl, rfl, rfl,
        fun hne => absurd hst hne, fun _ _ => ⟨rfl, rfl, rfl, rfl, rfl⟩,
        fun _ hw hheight => absurd (panelSized_iff.mpr ⟨hw, hheight⟩) hz⟩
  · exact ⟨_, exec_update_rejected hb (updateError_not_ready hst), rfl, rfl,
      ⟨rfl, rfl, rfl, rfl, rfl, rfl⟩, ⟨rfl, rfl, fun _ => rfl⟩, rfl, rfl, rfl, rfl, rfl, rfl, rfl,
      fun _ => ⟨rfl, rfl, rfl, rfl, rfl⟩, fun hready => absurd hready hst, fun hready => absurd hready hst⟩

/-- Settles O51: GET_WIDTH reads nothing of the state. -/
theorem widthIsAlways128 : Obligations.WidthIsAlways128 :=
  ⟨by decide, fun _ => rfl⟩

/-- Settles O52: GET_HEIGHT reads nothing of the state. -/
theorem heightIsAlways64 : Obligations.HeightIsAlways64 :=
  ⟨by decide, fun _ => rfl⟩

end Sys2Proof.Machine
end

section
/-! Progress (44_display_controller R133, 70_reset_and_hazards R176, R181): in a state of the invariant a step is
enabled unless a Transport call is never answered, and then the core is busy for good. -/

namespace Sys2Proof.Machine

section
variable {s : State}

/-- An idle core completes or accepts every operation the host issues. -/
theorem exec_hostOp_next {i : Instr} (hi : isHostOp i = true) (hb : s.busy = false) :
    ∃ t, exec i s = .next t := by
  cases i <;> cases hi
  case initializeOp =>
    by_cases hrej : initRejected s = true
    · exact ⟨_, exec_initialize_rejected hb hrej⟩
    · cases hh : s.hnd with
      | unopened => exact ⟨_, exec_initialize_unopened hb hrej hh⟩
      | opened h => exact ⟨_, exec_initialize_opened hb hrej hh⟩
  case update surf =>
    cases he : updateError surf s with
    | none => exact ⟨_, exec_update_accepted hb he⟩
    | some e => exact ⟨_, exec_update_rejected hb he⟩
  case dispose =>
    cases hh : s.hnd with
    | unopened => exact ⟨_, exec_dispose_unopened hb hh⟩
    | opened h => exact ⟨_, exec_dispose_opened hb hh⟩
  case getWidth | getHeight => exact ⟨_, rfl⟩

/-- A request that spells no operation is dropped (30_encoding R68). -/
theorem step_of_unknown_request {r : HostRequest} {rest : List HostRequest} (hb : s.busy = false)
    (hh : s.hung = false) (hq : s.reqs = r :: rest) (hd : decodeHost s.par.ops.host r = none) :
    step s = .next { s with reqs := rest } := by
  simp [step, nextAction, nextRequest, hb, hh, hq, hd]

theorem step_next_of_idle (hb : s.busy = false) (hh : s.hung = false) : ∃ t, step s = .next t := by
  cases hq : s.reqs with
  | nil => exact ⟨_, step_waiting hh hb hq⟩
  | cons r rest =>
    cases hd : decodeHost s.par.ops.host r with
    | none => exact ⟨_, step_of_unknown_request hb hh hq hd⟩
    | some i =>
      rw [step_of_request hb hh hq hd]
      exact exec_hostOp_next (isHostOp_of_decodeHost hd) hb

/-- An operation past its open step holds a handle (10_state R15). -/
theorem State.Inv.writing (hs : s.Inv) (hb : s.busy = true) (hh : s.hung = false) (hr : s.raised = none)
    (ho : s.opk ≠ .none) : ∃ h, s.Writing h := by
  have hopen : s.hnd ≠ .unopened := by
    refine hs.handle.mpr ?_
    cases hk : s.opk with
    | none => exact absurd hk ho
    | init => exact .inr rfl
    | update => exact .inl (hs.update hk).1
  cases hhnd : s.hnd with
  | unopened => exact absurd hhnd hopen
  | opened h => exact ⟨h, hb, hh, hr, ho, hhnd⟩

/-- An operation with something left to send sends it; with nothing left it encodes its frame or completes. -/
theorem State.Inv.step_next_of_writing {h : Nat} (hs : s.Inv) (hw : s.Writing h) : ∃ t, step s = .next t := by
  obtain ⟨hb, hh, hr, ho, hhnd⟩ := id hw
  cases hu : s.unsent with
  | cons x xs =>
    obtain ⟨_, _, -, hstep | hstep⟩ := step_send hb hh hr ho hhnd hu
    · exact ⟨_, hstep⟩
    · exact ⟨_, hstep⟩
  | nil =>
    obtain ⟨hc, hq⟩ := unsent_eq_nil.mp hu
    by_cases hframe : s.opk = .update ∧ s.pb = none
    · obtain ⟨hk, hpb⟩ := hframe
      obtain ⟨-, surf, hsurf, hz, -⟩ := hs.update hk
      exact ⟨_, step_encodeFrame hw hk hu hpb hsurf hz⟩
    · exact ⟨_, step_complete hb hh hr ho hc hq fun hk hpb => hframe ⟨hk, hpb⟩⟩

theorem State.Inv.step_next_of_busy (hs : s.Inv) (hb : s.busy = true) (hh : s.hung = false) :
    ∃ t, step s = .next t := by
  by_cases ho : s.opk = .none
  · obtain ⟨-, hr, -⟩ := hs.opening hb ho
    exact ⟨_, step_openBus hb hh hr ho⟩
  · cases hr : s.raised with
    | none =>
      obtain ⟨h, hw⟩ := hs.writing hb hh hr ho
      exact hs.step_next_of_writing hw
    | some x =>
      obtain ⟨t, habort, -⟩ := abortOperation_idle x ho
      exact ⟨t, (step_raised hb hh hr).trans habort⟩

/-- Only a busy core waits for an answer (70_reset_and_hazards R176). -/
theorem State.Inv.busy_of_hung (hs : s.Inv) (hh : s.hung = true) : s.busy = true := by
  cases hb : s.busy with
  | true => rfl
  | false =>
    obtain ⟨-, hnot, -⟩ := hs.idle hb
    simp [hh] at hnot

end

/-- Settles O4, by whether the core is busy; the invariant gives the handle and the surface that the next step
needs. -/
theorem progressUnlessUnanswered : Obligations.ProgressUnlessUnanswered := by
  refine fun s hs => ⟨fun hh => ?_, fun hh => ⟨⟨hs.busy_of_hung hh, hh⟩, step_hung hh⟩⟩
  cases hb : s.busy with
  | false => exact step_next_of_idle hb hh
  | true => exact hs.step_next_of_busy hb hh

end Sys2Proof.Machine
end

section
/-! The results of operations (10_state R17, 70_reset_and_hazards R181): a step of a busy core reports nothing
while it stays busy, and one result when it ends. -/

namespace Sys2Proof.Machine

/-- The step from `s` to `t` left the operation in progress and reported nothing, or ended it with the one
result that RES now holds. -/
inductive Reports (s t : State) : Prop
  | nothing (hb : t.busy = true) (hreplies : t.replies = s.replies)
  | result (op : HostOp) (hb : t.busy = false) (hreplies : t.replies = s.replies ++ [⟨op, t.res, none⟩])

theorem reports_afterOpen {s : State} (hb : s.busy = true) :
    Reports s (afterOpen (transportOpen devAddr s)) := by
  rcases afterOpen_cases s with ⟨-, he⟩ | ⟨_, -, he⟩ | ⟨_, -, he⟩ <;> rw [he]
  · exact .nothing hb rfl
  · exact .result .initializeOp rfl rfl
  · exact .nothing hb rfl

theorem reports_completeOperation {s : State} (ho : s.opk ≠ .none) : Reports s (completeOperation s) := by
  rcases completeOperation_cases ho with ⟨-, he⟩ | ⟨-, he⟩ <;> rw [he]
  · exact .result .initializeOp rfl rfl
  · exact .result .update rfl rfl

theorem reports_abortOperation {x : Xact} {s t : State} (h : abortOperation x s = .next t) : Reports s t := by
  rcases abortOperation_cases x s with ⟨-, he⟩ | ⟨-, he⟩ | ⟨-, he⟩ <;> rw [he] at h <;> cases h
  · exact .result .initializeOp rfl (by simp)
  · exact .result .update rfl rfl

theorem step_reports_of_busy {s t : State} (h : step s = .next t) (hb : s.busy = true) : Reports s t := by
  obtain ⟨-, hcase⟩ := step_cases h
  cases hcase with
  | idle hidle | ignore hidle | host hidle => simp [hb] at hidle
  | opens _ _ _ he => exact he ▸ reports_afterOpen hb
  | write _ _ _ k _ x q r _ _ he =>
    obtain ⟨_, heff⟩ := write_effect k x _ t he
    exact .nothing (heff.busy.trans hb) heff.replies
  | frame _ _ _ _ _ _ _ _ _ he => subst he; exact .nothing hb rfl
  | complete _ ho _ _ _ _ he => exact he ▸ reports_completeOperation ho
  | abort _ _ _ he => exact reports_abortOperation he

/-- An idle core that accepts an operation has nothing to report yet. -/
theorem step_replies_of_accepted {s t : State} (h : step s = .next t) (hb : s.busy = false)
    (hbt : t.busy = true) : t.replies = s.replies := by
  obtain ⟨-, hcase⟩ := step_cases h
  cases hcase with
  | idle _ he | ignore _ _ he => subst he; rfl
  | host _ i rest hi he =>
    rcases exec_host_cases hi he hb with ⟨_, _, rfl, -⟩ | ⟨rfl, -⟩ | ⟨rfl, -⟩ | ⟨_, rfl, -⟩ | ⟨rfl, -⟩ |
      ⟨rfl, -⟩ | ⟨_, _, rfl⟩
    case inr.inl | inr.inr.inl | inr.inr.inr.inl => rfl
    all_goals simp [hb] at hbt
  | opens hbusy | write hbusy | frame hbusy | complete hbusy | abort hbusy => simp [hb] at hbusy

/-- Settles O12, by whether the core was busy: only a busy core can clear BUSY, and an idle one can only set it. -/
theorem oneResultPerOperation : Obligations.OneResultPerOperation := by
  refine fun s t h => ⟨fun hb hbt => ?_, fun hbt => ?_⟩
  · cases step_reports_of_busy h hb with
    | nothing hstays => simp [hbt] at hstays
    | result op _ hreplies => exact ⟨op, hreplies⟩
  · cases hb : s.busy with
    | false => exact step_replies_of_accepted h hb hbt
    | true =>
      cases step_reports_of_busy h hb with
      | nothing _ hreplies => exact hreplies
      | result _ hends => simp [hbt] at hends

end Sys2Proof.Machine
end

section
/-! A register write that is never answered (44_display_controller R133, 60_exceptions R160,
70_reset_and_hazards R176). -/

namespace Sys2Proof.Machine

section
variable {s : State} {h : Nat} {x : Xact} {xs : List Xact} {a : Bool}

/-- Without an acknowledgement the page-stride counters stand still. -/
theorem strideStep_unacknowledged {t : State} (ht : t.ret ≠ .ok) : strideStep x t = acknowledge x t := by
  unfold strideStep
  split
  · contradiction
  · rfl

/-- In the base design the write step hangs (70_reset_and_hazards R176). -/
theorem step_unanswered (hs : s.Writing h) (hu : s.unsent = x :: xs) (ha : s.answer = .silent a)
    (hn : s.par.writeTimeout = none) :
    ∃ t, step s = .next t ∧ t.hung = true ∧ t.seq = s.seq ∧ t.trace = s.trace ++ [.write h x .unanswered] ∧
      SameHost s t ∧ SameController s t := by
  obtain ⟨r, q, -, hstep⟩ := step_send hs.busy hs.hung hs.raised hs.opk hs.hnd hu
  have hsilent := transportWrite_silent (s := { s with queue := q, cmdRest := r }) h x ha hn
  have hret : (transportWrite h x { s with queue := q, cmdRest := r }).ret = .none := by rw [hsilent]
  rw [strideStep_unacknowledged (by simp [hret]), or_self, acknowledge_none hret, hsilent] at hstep
  exact ⟨_, hstep, rfl, rfl, rfl, ⟨rfl, rfl, rfl⟩, ⟨rfl, rfl, rfl, rfl, rfl, rfl⟩⟩

/-- In a build with a timeout the write step fails (60_exceptions R160). -/
theorem step_timedOut {n : Nat} (hs : s.Writing h) (hu : s.unsent = x :: xs) (ha : s.answer = .silent a)
    (hn : s.par.writeTimeout = some n) :
    ∃ t, step s = .next t ∧ t.hung = s.hung ∧ t.raised = some x ∧ t.seq = s.seq ∧
      t.trace = s.trace ++ [.write h x .timedOut] ∧ SameHost s t ∧ SameController s t := by
  obtain ⟨r, q, -, hstep⟩ := step_send hs.busy hs.hung hs.raised hs.opk hs.hnd hu
  have htimeout := transportWrite_timeout (s := { s with queue := q, cmdRest := r }) h x ha hn
  have hret : (transportWrite h x { s with queue := q, cmdRest := r }).ret = .writeError := by rw [htimeout]
  rw [strideStep_unacknowledged (by simp [hret]), or_self, acknowledge_error hret, htimeout] at hstep
  exact ⟨_, hstep, rfl, rfl, rfl, rfl, ⟨rfl, rfl, rfl⟩, ⟨rfl, rfl, rfl, rfl, rfl, rfl⟩⟩

end

/-- Settles O23, by whether the build has a timeout. -/
theorem unansweredWriteHangs : Obligations.UnansweredWriteHangs := by
  intro s h x xs a hb hh hr ho hhnd hu ha
  have hs : s.Writing h := ⟨hb, hh, hr, ho, hhnd⟩
  refine ⟨fun hn => ?_, fun n hn => ?_⟩
  · obtain ⟨t, hstep, hhung, hseq, htrace, ⟨-, -, hreplies⟩, ⟨-, hhndt, -, hbusy, hopk, -⟩⟩ :=
      step_unanswered hs hu ha hn
    exact ⟨t, hstep, ⟨hbusy.trans hb, hhung⟩, hopk, hhndt, hseq, hreplies, htrace, step_hung hhung⟩
  · obtain ⟨t, hstep, hhung, hraised, hseq, htrace, ⟨-, -, hreplies⟩, ⟨-, hhndt, -, hbusy, hopk, -⟩⟩ :=
      step_timedOut hs hu ha hn
    have habort := step_raised (hbusy.trans hb) (hhung.trans hh) hraised
    obtain ⟨u, hend, hidle⟩ := abortOperation_idle x (hopk ▸ ho)
    exact ⟨t, u, hstep, hhung.trans hh, hbusy.trans hb, hopk, hhndt, hraised, hseq, hreplies, htrace,
      habort, habort.trans hend, hidle⟩

end Sys2Proof.Machine
end

section
/-! An INITIALIZE whose write fails (44_display_controller R128, R134, 60_exceptions R155, R156): the entries
before it are sent, and the abort closes the handle. -/

namespace Sys2Proof.Machine

section
variable {s : State} {h : Nat}

/-- The entries of a program before entry `f` are sent and acknowledged, and entry `f` is next. -/
theorem run_to_entry {prog : List Xact} {f : Nat} {x : Xact} {as : List Answer} (hs : s.Writing h)
    (hu : s.unsent = prog) (hx : prog[f]? = some x) (hscript : s.script = List.replicate f .ok ++ as) :
    ∃ t, core.run f s = .next t ∧ Acknowledged h (prog.take f) s t ∧ t.unsent = x :: prog.drop (f + 1) ∧
      t.seq = s.seq + f ∧ t.script = as := by
  obtain ⟨hlt, hget⟩ := List.getElem?_eq_some_iff.mp hx
  have hlen : (prog.take f).length = f := List.length_take_of_le hlt.le
  have hsplit : s.unsent = prog.take f ++ x :: prog.drop (f + 1) := by
    rw [hu, ← hget, ← List.drop_eq_getElem_cons hlt, List.take_append_drop]
  obtain ⟨t, hrun, hack⟩ := run_acknowledged hs hsplit (as := as) (by rw [hlen, hscript])
  rw [hlen] at hrun
  exact ⟨t, hrun, hack, List.append_cancel_left (hack.unsent.symm.trans hsplit), by rw [hack.seq, hlen],
    by simpa [hscript, hlen] using hack.script.symm⟩

/-- The abort of an INITIALIZE closes its handle (60_exceptions R155). -/
theorem step_abort_init {x : Xact} (hb : s.busy = true) (hh : s.hung = false) (hr : s.raised = some x)
    (ho : s.opk = .init) (hhnd : s.hnd = .opened h) :
    ∃ ok, (releaseHandle s).trace = s.trace ++ [.closed h ok] ∧
      step s = .next (finish .initializeOp (.deviceInitError (.transportWriteError s.seq x))
        { releaseHandle s with st := .uninitialized }) := by
  obtain ⟨ok, htrace⟩ : ∃ ok, (releaseHandle s).trace = s.trace ++ [.closed h ok] := by
    simpa [hhnd] using releaseHandle_cases s
  refine ⟨ok, htrace, ?_⟩
  rw [step_raised hb hh hr]
  simp only [abortOperation, ho]

end

/-- Settles O56: the program is sent up to write `f`, which fails, and the abort follows. -/
theorem initializeAbortIsPrecise : Obligations.InitializeAbortIsPrecise := by
  intro s h f a b as x hs ho hseq hq hx hscript
  have hwriting := writing_of_sending hs
  obtain ⟨-, -, -, -, hc, -⟩ := hs
  obtain ⟨t, hrun, hack, hnext, hseqt, hanswers⟩ := run_to_entry hwriting
    (by simp [State.unsent, hc, hq]) hx (by simpa using hscript)
  have hwt := hack.writing hwriting
  obtain ⟨u, hfail, ⟨-, -, -, htrace, -⟩, hsequ, hraised, hhung, -, ⟨-, -, hreplies⟩,
    ⟨-, hhnd, -, hbusy, hopk, -⟩⟩ := step_failed hwt hnext (answer_cons hanswers)
  have hunhung := hhung.trans hwt.hung
  obtain ⟨ok, hclose, habort⟩ := step_abort_init (hbusy.trans hwt.busy) hunhung hraised
    (hopk.trans (hack.opk.trans ho)) (hhnd.trans hwt.hnd)
  have hf : u.seq = f := by rw [hsequ, hseqt, hseq, Nat.zero_add]
  rw [hf] at habort
  refine ⟨_, ok, (run_add hrun).trans ((run_add (m := 1) (run_one hfail)).trans (run_one habort)), rfl, rfl,
    rfl, ⟨rfl, ?_, rfl, rfl, rfl, rfl, rfl⟩, ?_, rfl, ?_, ?_⟩
  · simpa using hunhung
  · simpa using hf
  · simp [hreplies, hack.replies]
  · simp [hclose, htrace, hack.trace]

end Sys2Proof.Machine
end

section
/-! The abort path (60_exceptions R155): an operation that ends leaves nothing of itself, and what a failed
write or a failed open changes besides. -/

namespace Sys2Proof.Machine

section
variable {s t : State}

theorem cleared_finish (op : HostOp) (v : Result) (hh : s.hung = false) : (finish op v s).cleared :=
  ⟨rfl, hh, rfl, rfl, rfl, rfl, rfl⟩

theorem samePanel_of_eq (h : t.panel = s.panel) : SamePanel s t := by
  simp [SamePanel, State.ramByte, h]

/-- The open step whose open fails (44_display_controller R133). -/
theorem step_open_failed {a : Bool} (hb : s.busy = true) (hh : s.hung = false) (hr : s.raised = none)
    (ho : s.opk = .none) (ha : s.answer = .fail a) :
    step s = .next (finish .initializeOp (.deviceInitError .transportOpenError)
      { s.drawn with
        trace := s.trace ++ [.openFailed devAddr]
        ret := .openError
        st := .uninitialized }) := by
  rw [step_openBus hb hh hr ho, transportOpen_fail devAddr ha]
  rfl

end

/-- Settles O22, by what failed: each of the three steps ends in `finish`, over a state that differs from `s`
only in what the abort undoes. -/
theorem abortPath : Obligations.AbortPath := by
  refine ⟨fun s h x hb hh hr ho hhnd => ?init, fun s x hb hh hr ho => ?update,
    fun s a hb hh hr ho hhnd ha => ?opening⟩
  case init =>
    obtain ⟨ok, hclose, hstep⟩ := step_abort_init hb hh hr ho hhnd
    have hreplies : (releaseHandle s).replies = s.replies := by simp
    exact ⟨_, ok, hstep, hclose, rfl, rfl, rfl, congrArg (· ++ _) hreplies, rfl,
      cleared_finish _ _ (by simpa using hh), samePanel_of_eq (by simp)⟩
  case update =>
    exact ⟨_, step_abort_update hb hh hr ho, rfl, rfl, rfl, rfl, rfl, rfl, cleared_finish _ _ hh,
      samePanel_of_eq rfl⟩
  case opening =>
    exact ⟨_, step_open_failed hb hh hr ho ha, hhnd, rfl, rfl, rfl, rfl, cleared_finish _ _ hh,
      samePanel_of_eq rfl⟩

end Sys2Proof.Machine
end

section
/-! A failed open reaches the host only as the cause of a `DeviceInitError` (60_exceptions R147, R150): no
result is written bare, so every step keeps that RES and the replies hold none. -/

namespace Sys2Proof.Machine

/-- Neither RES nor a recorded reply is a bare `TransportOpenError` (60_exceptions R150). -/
structure State.NoBareOpenError (s : State) : Prop where
  res : s.res ≠ .transportOpenError
  replies : ∀ r ∈ s.replies, r.result ≠ .transportOpenError

section
variable {s t : State}

/-- Only RES and the replies matter. -/
theorem State.NoBareOpenError.congr (hs : s.NoBareOpenError) (hres : t.res = s.res)
    (hreplies : t.replies = s.replies) : t.NoBareOpenError :=
  ⟨hres ▸ hs.res, hreplies ▸ hs.replies⟩

theorem noBareOpenError_append {rs : List Reply} {r : Reply}
    (hrs : ∀ r ∈ rs, r.result ≠ .transportOpenError) (hr : r.result ≠ .transportOpenError) :
    ∀ r' ∈ rs ++ [r], r'.result ≠ .transportOpenError :=
  List.forall_mem_append.mpr ⟨hrs, List.forall_mem_singleton.mpr hr⟩

/-- An operation that ends overwrites RES, so only its result and the earlier replies matter. -/
theorem noBareOpenError_finish (op : HostOp) {v : Result} (hv : v ≠ .transportOpenError)
    (hs : ∀ r ∈ s.replies, r.result ≠ .transportOpenError) : (finish op v s).NoBareOpenError :=
  ⟨hv, noBareOpenError_append hs hv⟩

theorem State.NoBareOpenError.releaseHandle (hs : s.NoBareOpenError) : (releaseHandle s).NoBareOpenError :=
  hs.congr (releaseHandle_res s) (releaseHandle_replies s)

/-- The open step wraps the failure of T_OPEN (60_exceptions R147). -/
theorem State.NoBareOpenError.afterOpen (hs : s.NoBareOpenError) :
    (afterOpen (transportOpen devAddr s)).NoBareOpenError := by
  rcases afterOpen_cases s with ⟨-, he⟩ | ⟨_, -, he⟩ | ⟨_, -, he⟩ <;> rw [he]
  · exact hs.congr rfl rfl
  · exact noBareOpenError_finish _ (by simp) hs.replies
  · exact hs.congr rfl rfl

theorem State.NoBareOpenError.completeOperation (hs : s.NoBareOpenError) (ho : s.opk ≠ .none) :
    (completeOperation s).NoBareOpenError := by
  rcases completeOperation_cases ho with ⟨-, he⟩ | ⟨-, he⟩ <;> rw [he]
  · exact noBareOpenError_finish _ (by simp) hs.replies
  · exact noBareOpenError_finish _ (by simp) hs.replies

theorem State.NoBareOpenError.abortOperation {x : Xact} (hs : s.NoBareOpenError)
    (h : abortOperation x s = .next t) : t.NoBareOpenError := by
  rcases abortOperation_cases x s with ⟨-, he⟩ | ⟨-, he⟩ | ⟨-, he⟩ <;> rw [he] at h <;> cases h
  · exact noBareOpenError_finish _ (by simp) hs.releaseHandle.replies
  · exact noBareOpenError_finish _ (by simp) hs.replies

theorem State.NoBareOpenError.exec_hostOp {i : Instr} (hs : s.NoBareOpenError) (hi : isHostOp i = true)
    (hb : s.busy = false) (h : exec i s = .next t) : t.NoBareOpenError := by
  rcases exec_host_cases hi h hb with ⟨_, _, rfl, hv⟩ | ⟨rfl, -⟩ | ⟨rfl, -⟩ | ⟨_, rfl, -⟩ | ⟨rfl, -⟩ |
    ⟨rfl, -⟩ | ⟨_, _, rfl⟩
  · exact noBareOpenError_finish _ hv hs.replies
  · exact hs.congr rfl rfl
  · exact hs.congr rfl rfl
  · exact hs.congr rfl rfl
  · exact noBareOpenError_finish _ (by simp) hs.replies
  · exact noBareOpenError_finish _ (by simp) hs.releaseHandle.replies
  · exact ⟨hs.res, noBareOpenError_append hs.replies (by simp)⟩

theorem State.NoBareOpenError.step (hs : s.NoBareOpenError) (h : step s = .next t) : t.NoBareOpenError := by
  obtain ⟨-, hcase⟩ := step_cases h
  cases hcase with
  | idle _ he | ignore _ _ he => subst he; exact hs.congr rfl rfl
  | host hb _ rest hi he =>
    have hissued : State.NoBareOpenError { s with reqs := rest } := hs.congr rfl rfl
    exact hissued.exec_hostOp hi hb he
  | opens _ _ _ he => exact he ▸ hs.afterOpen
  | write _ _ _ k _ x q r _ _ he =>
    obtain ⟨_, heff⟩ := write_effect k x _ t he
    exact hs.congr heff.res heff.replies
  | frame _ _ _ _ _ _ _ _ _ he => subst he; exact hs.congr rfl rfl
  | complete _ ho _ _ _ _ he => exact he ▸ hs.completeOperation ho
  | abort _ _ _ he => exact hs.abortOperation he

end

/-- Settles O11, by the cases of a step: what ends an operation never reports the bare error, and every other
step leaves RES and the replies, or adds the reply of a getter. -/
theorem openErrorNeverBare : Obligations.OpenErrorNeverBare := by
  intro s t hres hreplies h
  obtain ⟨hrest, hrepliest⟩ := State.NoBareOpenError.step ⟨hres, hreplies⟩ h
  exact ⟨hrest, hrepliest⟩

end Sys2Proof.Machine
end

section
/-! The reset event (70_reset_and_hazards R165 to R168): the core is as at reset, and of the panel only what a
command cut short leaves unknown can change (R175). -/

namespace Sys2Proof.Machine

section
variable {s : State}

/-- A reset that cuts a multi-byte command loses the panel. -/
theorem coreReset_panel_of_param {k : Cmd} {got : List Byte} (hrx : s.panel.rx = .param k got) :
    (coreReset s).panel = s.panel.lose s.draws := by
  simp [coreReset, hrx]

/-- A reset outside a multi-byte command does not reach the panel. -/
theorem coreReset_panel_of_not_param (hrx : ∀ k got, s.panel.rx ≠ .param k got) :
    (coreReset s).panel = s.panel := by
  cases hcase : s.panel.rx with
  | boundary | lost => simp [coreReset, hcase]
  | param k got => exact absurd hcase (hrx k got)

@[simp] theorem coreReset_panel_ram (s : State) : (coreReset s).panel.ram = s.panel.ram := by
  by_cases hcut : ∃ k got, s.panel.rx = .param k got
  · obtain ⟨_, _, hrx⟩ := hcut
    rw [coreReset_panel_of_param hrx]
    rfl
  · rw [coreReset_panel_of_not_param fun k got hrx => hcut ⟨k, got, hrx⟩]

@[simp] theorem ramByte_coreReset (s : State) (a : Nat) : (coreReset s).ramByte a = s.ramByte a := by
  simp [State.ramByte]

/-- The reset event ends whatever operation was in progress. -/
theorem cleared_coreReset (s : State) : (coreReset s).cleared :=
  ⟨rfl, rfl, rfl, rfl, rfl, rfl, rfl⟩

end

/-- Settles O54: the core's registers and histories are those of State.reset, and the panel's part is the split
on whether the reset cut a multi-byte command. -/
theorem resetEventKeepsPanel : Obligations.ResetEventKeepsPanel := by
  intro s
  refine ⟨rfl, rfl, rfl, rfl, rfl, rfl, rfl, rfl, cleared_coreReset s, ramByte_coreReset s,
    coreReset_panel_of_not_param, ?_⟩
  intro k got hrx
  rw [coreReset_panel_of_param hrx]
  rfl

end Sys2Proof.Machine
end
